-- ==== Sys2Proof/Word.lean ====
section
/-! DEFINITION. The widths of spec/00_scope.md (0.6.3, TABLE 0(d)) as types, and a table of eight, the shape of the
window table and of the group table (R29, R94). -/

namespace Sys2Proof

/-- One byte of a management frame (R195). -/
abbrev Byte := BitVec 8

/-- One bus word: four lanes, lane k holding bits 8k+7 to 8k (11, opening). -/
abbrev Word := BitVec 32

/-- A 32-bit byte address (0.6.3). -/
abbrev Addr := BitVec 32

/-- A value of the 48-bit TIME (R81). -/
abbrev Time := BitVec 48

/-- A lane set: bit k is lane k (R196, word 0 bits 27..24). -/
abbrev Lanes := BitVec 4

/-- The full lane set {0,1,2,3}. -/
def Lanes.all : Lanes := 0xF#4

/-- A commit group's number, 0 to 7 (R29). -/
abbrev GroupNum := Fin 8

/-- A window's number, 0 to 7 (R94). -/
abbrev WindowNum := Fin 8

/-- Eight like things, numbered 0 to 7. -/
structure Table8 (α : Type) where
  e0 : α
  e1 : α
  e2 : α
  e3 : α
  e4 : α
  e5 : α
  e6 : α
  e7 : α
deriving DecidableEq, Repr

namespace Table8

variable {α β : Type}

/-- Eight times the same value: every reset table gives one value for all eight records. -/
def fill (a : α) : Table8 α := ⟨a, a, a, a, a, a, a, a⟩

/-- The record of number `i`. -/
def get (t : Table8 α) : Fin 8 → α
  | 0 => t.e0 | 1 => t.e1 | 2 => t.e2 | 3 => t.e3
  | 4 => t.e4 | 5 => t.e5 | 6 => t.e6 | 7 => t.e7

/-- The table with record `i` replaced. -/
def set (t : Table8 α) (i : Fin 8) (a : α) : Table8 α :=
  match i with
  | 0 => { t with e0 := a } | 1 => { t with e1 := a } | 2 => { t with e2 := a } | 3 => { t with e3 := a }
  | 4 => { t with e4 := a } | 5 => { t with e5 := a } | 6 => { t with e6 := a } | 7 => { t with e7 := a }

/-- A function applied to every record. -/
def map (f : α → β) (t : Table8 α) : Table8 β :=
  ⟨f t.e0, f t.e1, f t.e2, f t.e3, f t.e4, f t.e5, f t.e6, f t.e7⟩

/-- The table whose record `i` is `f i`. -/
def tabulate (f : Fin 8 → α) : Table8 α := ⟨f 0, f 1, f 2, f 3, f 4, f 5, f 6, f 7⟩

/-- The records in ascending number. -/
def toList (t : Table8 α) : List α := [t.e0, t.e1, t.e2, t.e3, t.e4, t.e5, t.e6, t.e7]

@[simp] theorem get_fill (a : α) (i : Fin 8) : (fill a).get i = a := by
  fin_cases i <;> rfl

@[simp] theorem get_set_self (t : Table8 α) (i : Fin 8) (a : α) : (t.set i a).get i = a := by
  fin_cases i <;> rfl

theorem get_set_ne (t : Table8 α) {i j : Fin 8} (a : α) (h : j ≠ i) : (t.set i a).get j = t.get j := by
  fin_cases i <;> fin_cases j <;> first | rfl | exact absurd rfl h

theorem get_set (t : Table8 α) (i j : Fin 8) (a : α) :
    (t.set i a).get j = if j = i then a else t.get j := by
  by_cases h : j = i
  · subst h; simp
  · simp [h, get_set_ne t a h]

@[simp] theorem get_map (f : α → β) (t : Table8 α) (i : Fin 8) : (t.map f).get i = f (t.get i) := by
  fin_cases i <;> rfl

@[simp] theorem get_tabulate (f : Fin 8 → α) (i : Fin 8) : (tabulate f).get i = f i := by
  fin_cases i <;> rfl

@[simp] theorem set_set (t : Table8 α) (i : Fin 8) (a b : α) : (t.set i a).set i b = t.set i b := by
  fin_cases i <;> rfl

theorem ext_get {t u : Table8 α} (h : ∀ i, t.get i = u.get i) : t = u := by
  have h0 := h 0; have h1 := h 1; have h2 := h 2; have h3 := h 3
  have h4 := h 4; have h5 := h 5; have h6 := h 6; have h7 := h 7
  cases t; cases u
  simp only [get] at *
  subst h0 h1 h2 h3 h4 h5 h6 h7
  rfl

end Table8

end Sys2Proof
end

