-- ==== Sys2Proof/Syntax.lean ====
section
/-! DEFINITION. The commands of the block: one constructor per row of spec/opcode_table.json. A row of the management
link carries what happens on its wires (a `FrameEvent`), the take carries its bus transaction, a response what memory
answered. -/

namespace Sys2Proof

/-- READ or WRITE (R118). -/
inductive Direction where
  | read
  | write
deriving DecidableEq, Repr

/-- One upstream transaction as the initiator presents it (0.6.3): one aligned word, read or write, a lane set and data
for a write. -/
structure Transaction where
  addr : Addr
  dir : Direction
  lanes : Lanes
  data : Word
deriving DecidableEq, Repr

/-- What happens on the management link's wires for a command's frame (R179). `whole` is the entire frame, taken as one
happening: select falls, the command byte and the host bytes `params` that follow it are clocked in, select rises. The
three other events are the parts of a frame, so that other commands can fall between them: select falls; bits are
clocked in, most significant first (R180); select rises. -/
inductive FrameEvent where
  | whole (params : List Byte)
  | fall
  | clock (bits : List Bool)
  | rise
deriving DecidableEq, Repr

/-- A rise or a fall of the SYNC line (R88). -/
inductive Edge where
  | rise
  | fall
deriving DecidableEq, Repr

/-- The commands: every row of spec/opcode_table.json, in its order. -/
inductive Instr where
  /-- IDENTIFY, code 01H (R193). -/
  | identify (ev : FrameEvent)
  /-- STATUS READ, code 02H (R190). -/
  | statusRead (ev : FrameEvent)
  /-- STATUS CLEAR, code 03H (R191). -/
  | statusClear (ev : FrameEvent)
  /-- MODE SET, code 04H (R164). -/
  | modeSet (ev : FrameEvent)
  /-- SOFT RESET, code 05H (R173). -/
  | softReset (ev : FrameEvent)
  /-- TICK SET, code 08H (R76). -/
  | tickSet (ev : FrameEvent)
  /-- TIME SET, code 09H (R81, R82). -/
  | timeSet (ev : FrameEvent)
  /-- TIME READ, code 0AH (R85). -/
  | timeRead (ev : FrameEvent)
  /-- CYCLE SET, code 0BH (R91). -/
  | cycleSet (ev : FrameEvent)
  /-- WINDOW SET, code 10H (R96). -/
  | windowSet (ev : FrameEvent)
  /-- WINDOW READ, code 11H (R100). -/
  | windowRead (ev : FrameEvent)
  /-- GROUP SET, code 20H (R42). -/
  | groupSet (ev : FrameEvent)
  /-- GROUP ARM, code 21H (R45). -/
  | groupArm (ev : FrameEvent)
  /-- GROUP DISARM, code 22H (R47). -/
  | groupDisarm (ev : FrameEvent)
  /-- GROUP COMMIT NOW, code 23H (R48). -/
  | groupCommitNow (ev : FrameEvent)
  /-- GROUP DISCARD, code 24H (R50). -/
  | groupDiscard (ev : FrameEvent)
  /-- GROUP OFF, code 25H (R52). -/
  | groupOff (ev : FrameEvent)
  /-- GROUP READ, code 26H (R53). -/
  | groupRead (ev : FrameEvent)
  /-- GROUP RETRY, code 27H (R66). -/
  | groupRetry (ev : FrameEvent)
  /-- GROUP ABANDON, code 28H (R67). -/
  | groupAbandon (ev : FrameEvent)
  /-- RING SET, code 30H (R145). -/
  | ringSet (ev : FrameEvent)
  /-- RING READ, code 31H (R161). -/
  | ringRead (ev : FrameEvent)
  /-- A frame whose command code is undefined (R183). -/
  | unknownCommand (code : Byte) (ev : FrameEvent)
  /-- A whole frame of these bits, not a multiple of 8 (R183). -/
  | frameError (bits : List Bool)
  /-- The initiator port takes an upstream transaction (R101). -/
  | upstreamTransactionTake (t : Transaction)
  /-- The divider completes its count (R75). -/
  | tick
  /-- The seal point of group `g` is reached (R33, R37). -/
  | sealPointReached (g : GroupNum)
  /-- The commit instant of group `g` is reached (R34). -/
  | commitInstantReached (g : GroupNum)
  /-- The held write's hold count reaches the hold limit (R19). -/
  | holdExpiry
  /-- An edge of the SYNC line (R88). -/
  | syncEdge (e : Edge)
  /-- FREEZE is asserted (R78). -/
  | freezeBegin
  /-- FREEZE is released (R78). -/
  | freezeEnd
  /-- RESET falls (R176). -/
  | hardwareReset
  /-- RESET rises (R176). -/
  | resetRise
  /-- Power-on (R177). `runs`: the supply is within range and RESET is high, so that the device leaves its power-on
  values at once. -/
  | powerOn (runs : Bool)
  /-- The arbiter grants (R121). -/
  | grant
  /-- The drain engine takes the head of the commit queue (R58). -/
  | drainTake
  /-- The ring writer begins a record (R149). -/
  | recordBegin
  /-- The write held with reason ROOM is placed (R20). -/
  | heldWritePlacement
  /-- The flush is complete (R171). -/
  | flushComplete
  /-- The soft reset completes (R174). -/
  | softResetCompletion
  /-- Memory answers the drain engine's step: OK or ERROR (R60, R63). -/
  | drainStepResponse (ok : Bool)
  /-- Memory answers a record word: OK or ERROR (R150, R152). -/
  | recordWordResponse (ok : Bool)
  /-- Memory answers a head word: OK or ERROR (R151). -/
  | headWordResponse (ok : Bool)
  /-- Memory answers the initiator path's transaction: OK (with read data for a read) or ERROR (R123). -/
  | initiatorResponse (ok : Bool) (data : Word)
deriving DecidableEq, Repr

end Sys2Proof
end

