-- ==== Sys2Proof/Config.lean ====
section
/-! DEFINITION. The fixed quantities of spec/00_scope.md TABLE 0(d), and the two free values of the model: the
order in which requests at one moment are taken where the spec says that either may be first. -/

namespace Sys2Proof.Config

/-- The staging pool's entries (TABLE 0(d), R1). -/
def poolSize : Nat := 256

/-- The record queue's capacity (R142). -/
def recordQueueSize : Nat := 16

/-- The greatest value of the saturating counts (TABLE 0(d)). -/
def countMax : Nat := 65535

/-- The size of a ring slot in bytes (TABLE 0(d)). -/
def slotBytes : Nat := 32

/-- FREE VALUE (assumption 7). "Two requests that reach an IDLE arbiter at one moment, with no response between, are
taken in either order" (R122): which of them is taken first, for the n-th such moment. It has no body: nothing is
known of it. -/
opaque firstArrival : Nat → Nat

/-- FREE VALUE (assumption 8). "A request can be made by a requester at the same moment that the arbiter becomes IDLE
at another requester's response, and either may be taken first" (R122): whether the request is first, for the n-th such
moment. It has no body: nothing is known of it. -/
opaque requestFirst : Nat → Bool

end Sys2Proof.Config
end

