-- ==== Sys2Proof/Machine/State.lean ====
section
/-! DEFINITION. The state of the device, block by block as spec/00_scope.md 0.4 names the blocks, each with its reset
values from the table of the section that owns it. -/

namespace Sys2Proof.Machine

/-! ## Staging store (Section 1) -/

/-- An entry in use (TABLE 1(a)). Its group, its list and its arrival position are where it stands. -/
structure Entry where
  addr : Addr
  data : Word
  lanes : Lanes
deriving DecidableEq, Repr

/-! ## Group table (Section 2) and progress records (Section 3) -/

/-- TABLE 2(b). -/
inductive GroupState where
  | off | opened | armed | sealed | queued | draining | stalled
deriving DecidableEq, Repr

/-- R31. -/
inductive Trigger where
  | manual | oneshot | periodic | cycle
deriving DecidableEq, Repr

/-- The state a group takes when its epoch completes (R40). -/
inductive ReturnState where
  | opened | armed
deriving DecidableEq, Repr

/-- A step of a drain (R59). -/
inductive Step where
  | start | entry | finish
deriving DecidableEq, Repr

/-- The drain engine's progress record of a group (R57). -/
structure Progress where
  begun : Bool
  entriesWritten : Nat
  startTime : Time
  abandonPending : Bool
deriving DecidableEq, Repr

/-- A group: its record (TABLE 2(a)), its two lists (R5), oldest entry first, and its progress record (R57). -/
structure Group where
  state : GroupState
  trigger : Trigger
  nextInstant : Option Time
  period : BitVec 32
  cycleOffset : BitVec 32
  guardTicks : BitVec 16
  quota : Nat
  marker : Option Addr
  reportCommits : Bool
  reportLates : Bool
  epoch : BitVec 32
  overrunCount : Nat
  lateCount : Nat
  returnState : ReturnState
  epochInstant : Time
  sealTime : Time
  faultStep : Option Step
  faultAddr : Addr
  filling : List Entry
  outgoing : List Entry
  progress : Progress
deriving DecidableEq, Repr

/-- TABLE 3(a). -/
def Progress.initial : Progress :=
  { begun := false, entriesWritten := 0, startTime := 0, abandonPending := false }

/-- TABLE 2(d), TABLE 1(b), TABLE 3(a): the same at every kind of reset. -/
def Group.initial : Group :=
  { state := .off, trigger := .manual, nextInstant := none, period := 0, cycleOffset := 0, guardTicks := 0
    quota := 0, marker := none, reportCommits := false, reportLates := false, epoch := 0, overrunCount := 0
    lateCount := 0, returnState := .opened, epochInstant := 0, sealTime := 0, faultStep := none, faultAddr := 0
    filling := [], outgoing := [], progress := Progress.initial }

/-! ## Drain engine (Section 3) -/

/-- The kind of a drain (R57). -/
inductive DrainKind where
  | epoch | abandonEnd
deriving DecidableEq, Repr

/-- Waiting for the grant, or granted and awaiting memory's response (R57, R149). -/
inductive Status where
  | requested | outstanding
deriving DecidableEq, Repr

/-- The drain context of a BUSY engine (R57). -/
structure DrainContext where
  group : GroupNum
  kind : DrainKind
  step : Step
  status : Status
deriving DecidableEq, Repr

/-! ## Timebase (Section 4) -/

/-- The SYNC edge selection (R88). -/
inductive SyncSelect where
  | none | rise | fall | both
deriving DecidableEq, Repr

/-- TABLE 4(a), with the levels of the FREEZE and SYNC lines. Whether the timebase is frozen follows from
`freezeEnable` and `freezeLine` (R78). -/
structure Timebase where
  divisor : Nat
  count : Nat
  freezeEnable : Bool
  freezeLine : Bool
  syncLine : Bool
  holdLimit : Nat
  time : Time
  cycleLength : Nat
  syncSelect : SyncSelect
  cyclePosition : Nat
  cycleNumber : BitVec 32
deriving DecidableEq, Repr

/-- TABLE 4(d), POWER-ON and HARDWARE RESET; the line levels are DESIGN CHOICE (assumption 2). -/
def Timebase.initial : Timebase :=
  { divisor := 1, count := 0, freezeEnable := false, freezeLine := false, syncLine := false, holdLimit := 1024
    time := 0, cycleLength := 65536, syncSelect := .none, cyclePosition := 0, cycleNumber := 0 }

/-! ## Window table and initiator port (Section 5) -/

/-- A window's kind (TABLE 5(a)). -/
inductive WindowKind where
  | stage | watch
deriving DecidableEq, Repr

/-- A STAGE window's read view (R24). -/
inductive ReadView where
  | memory | staged
deriving DecidableEq, Repr

/-- A STAGE window's full policy (R16, R17). -/
inductive FullPolicy where
  | refuse | wait
deriving DecidableEq, Repr

/-- Which accesses a WATCH window watches (R109). -/
inductive WatchOn where
  | writes | reads | both
deriving DecidableEq, Repr

/-- A window record (TABLE 5(a)). -/
structure Window where
  enabled : Bool
  kind : WindowKind
  base : Addr
  size : BitVec 32
  group : GroupNum
  readView : ReadView
  fullPolicy : FullPolicy
  watchOn : WatchOn
  watchData : Bool
deriving DecidableEq, Repr

/-- TABLE 5(c): the same at every kind of reset. -/
def Window.initial : Window :=
  { enabled := false, kind := .stage, base := 0, size := 0, group := 0, readView := .memory, fullPolicy := .refuse
    watchOn := .writes, watchData := false }

/-- The disposition kept with a taken transaction that needs the memory port (R101, R102); an overlay read keeps its
group. A held write's disposition is `hold`. -/
inductive Disposition where
  | pass
  | tailSnoop
  | watch
  | overlay (g : GroupNum)
  | hold
deriving DecidableEq, Repr

/-- The taken transaction (R101). -/
structure Taken where
  tx : Transaction
  takeTime : Time
  disposition : Disposition
  window : Option WindowNum
deriving DecidableEq, Repr

/-- The hold reason (R17, R111). -/
inductive HoldReason where
  | room | mode
deriving DecidableEq, Repr

/-- The initiator port (R101). A held write keeps its group, hold reason and hold count (R17, R18). -/
inductive Port where
  | free
  | passing (t : Taken)
  | held (t : Taken) (group : GroupNum) (reason : HoldReason) (count : Nat)
deriving DecidableEq, Repr

/-- What the initiator sees on its transaction when it is answered (0.6.3). -/
inductive Reply where
  | okRead (data : Word)
  | okWrite
  | error
deriving DecidableEq, Repr

/-! ## Memory port and arbiter (Section 6) -/

/-- The requesters (R118, R119). -/
inductive Owner where
  | drain | record | initiator
deriving DecidableEq, Repr

/-- A request, or the outstanding transaction less its owner (R118). -/
structure Request where
  addr : Addr
  dir : Direction
  lanes : Lanes
  data : Word
deriving DecidableEq, Repr

/-- The arbiter: the outstanding transaction with its owner while BUSY, and the three request places (R119). -/
structure Arbiter where
  outstanding : Option (Owner × Request)
  drainPlace : Option Request
  recordPlace : Option Request
  initiatorPlace : Option Request
deriving DecidableEq, Repr

/-- TABLE 6(a): the same at every kind of reset. -/
def Arbiter.initial : Arbiter :=
  { outstanding := none, drainPlace := none, recordPlace := none, initiatorPlace := none }

/-! ## Access watch (Section 7) -/

/-- An OPEN watch context (TABLE 7(a)). -/
structure WatchContext where
  window : WindowNum
  takeTime : Time
  addr : Addr
  dir : Direction
  lanes : Lanes
  capture : Bool
  writeData : Word
  grantsAhead : Nat
deriving DecidableEq, Repr

/-! ## Record unit (Section 8) -/

/-- The cause of an OVERRUN record (TABLE 11(f)). -/
inductive OverrunCause where
  | busy | jump
deriving DecidableEq, Repr

/-- The cause of a REFUSED record (TABLE 11(f)). -/
inductive RefusedCause where
  | quota | pool | timeout | reset
deriving DecidableEq, Repr

/-- A record with the contents its kind carries (TABLE 11(f)); the kind is the constructor. -/
inductive RecordBody where
  | watch (window : WindowNum) (takeTime : Time) (addr : Addr) (dir : Direction) (lanes : Lanes) (data : Word)
      (error : Bool) (responseTime : Time) (grantsAhead : Nat)
  | commitDone (group : GroupNum) (epoch : BitVec 32) (entries : Nat) (scheduled : Time) (startTime endTime : Time)
  | late (group : GroupNum) (time : Time) (addr : Addr) (lanes : Lanes) (missed : Time)
  | overrun (group : GroupNum) (time : Time) (cause : OverrunCause) (skipped : Nat)
  | fault (group : GroupNum) (time : Time) (step : Step) (addr : Addr)
  | refused (group : GroupNum) (time : Time) (cause : RefusedCause) (addr : Addr) (lanes : Lanes)
  | abandoned (group : GroupNum) (time : Time) (epoch : BitVec 32) (dropped : Nat)
  | lost (time : Time) (count : Nat)
deriving DecidableEq, Repr

/-- A record in the queue: complete but for its sequence number, with the urgency flag of its append (R142, R157). -/
structure QueuedRecord where
  body : RecordBody
  urgent : Bool
deriving DecidableEq, Repr

/-- The ring writer's task (R149), with what its later words need: `record k slot seq` writes word `k` of the record at
the head of the queue; `head p gen slot urgent` announces that record. `disowned` is the word of a ring disabled while
it was outstanding (R148); `isHead` tells a head word from a record word, and `thenInitialHead` that the ring has been
enabled again and its initial head word waits for this response (R146). -/
inductive WriterTask where
  | initialHead
  | record (k : Nat) (slot : Nat) (seq : BitVec 32)
  | head (p gen : Nat) (slot : Nat) (urgent : Bool)
  | disowned (isHead : Bool) (thenInitialHead : Bool)
deriving DecidableEq, Repr

/-- The record unit: ring parameters (TABLE 8(a)), indices (TABLE 8(b)), record queue, lost count and ring writer
(IDLE is `none`). -/
structure RecordUnit where
  enabled : Bool
  base : Addr
  capacity : Nat
  headAddr : Addr
  tailAddr : Addr
  threshold : Nat
  urgencyMask : BitVec 8
  producer : Nat
  generation : Nat
  consumer : Nat
  sequence : BitVec 32
  urgentMark : Option Nat
  queue : List QueuedRecord
  lostCount : Nat
  writer : Option (WriterTask × Status)
deriving DecidableEq, Repr

/-- TABLE 8(c): the same at every kind of reset. -/
def RecordUnit.initial : RecordUnit :=
  { enabled := false, base := 0, capacity := 0, headAddr := 0, tailAddr := 0, threshold := 0, urgencyMask := 0
    producer := 0, generation := 0, consumer := 0, sequence := 0, urgentMark := none, queue := [], lostCount := 0
    writer := none }

/-! ## Mode control (Section 9) -/

/-- R163. -/
inductive Mode where
  | bypass | active | quiescing | resetting
deriving DecidableEq, Repr

/-- Whether the device runs (R176, R177): it holds its power-on values, RESET is low, or it runs. -/
inductive RunState where
  | powerOnHold | resetLow | running
deriving DecidableEq, Repr

/-! ## Management link and status block (Section 10) -/

/-- TABLE 10(a), in the order of the codes 00H to 08H. -/
inductive Result where
  | ok | busy | state | param | conflict | length | unknown | stale | frame
deriving DecidableEq, Repr

/-- The phases of the frame shifter (R179). -/
inductive Phase where
  | idle | command | parameters | data | excess | busy
deriving DecidableEq, Repr

/-- The snapshot of a read command (R182): the whole read data, or all eight records for WINDOW READ and GROUP READ. -/
inductive Snapshot where
  | none
  | whole (data : List Byte)
  | windows (w : Table8 Window)
  | groups (g : Table8 Group)
deriving DecidableEq, Repr

/-- The frame shifter (R179): phase, bits received, the bits of the unfinished byte, the command code once complete,
the parameter bytes, the snapshot, device byte 0 as sampled at the fall of select, and the bits that data out has shown at
the rising edges of the link clock so far, the first first (R180). -/
structure Shifter where
  phase : Phase
  bits : Nat
  unfinished : List Bool
  code : Option Byte
  params : List Byte
  snapshot : Snapshot
  byte0 : Byte
  sent : List Bool
deriving DecidableEq, Repr

/-- The IDLE shifter holds nothing (R179). -/
def Shifter.idle : Shifter :=
  { phase := .idle, bits := 0, unfinished := [], code := none, params := [], snapshot := .none, byte0 := 0, sent := [] }

/-- The seven sticky flags (R188). -/
structure StatusFlags where
  pwr : Bool
  hrst : Bool
  srst : Bool
  tail : Bool
  stall : Bool
  ringerr : Bool
  frame : Bool
deriving DecidableEq, Repr

/-- The link and the status block; `selectLow` is the level of the select line, `dataOut` the bits that data out showed in the
latest frame that ended, the first first (R180, assumption 14). -/
structure Link where
  shifter : Shifter
  selectLow : Bool
  lastResult : Result
  flags : StatusFlags
  changeCount : BitVec 8
  dataOut : List Bool
deriving DecidableEq, Repr

/-- No flag set. -/
def StatusFlags.clear : StatusFlags :=
  { pwr := false, hrst := false, srst := false, tail := false, stall := false, ringerr := false, frame := false }

/-- TABLE 10(c), POWER-ON; the select line high is DESIGN CHOICE (assumption 2). -/
def Link.initial : Link :=
  { shifter := Shifter.idle, selectLow := false, lastResult := .ok, flags := { StatusFlags.clear with pwr := true }
    changeCount := 0, dataOut := [] }

/-! ## The whole device -/

/-- The model's own marks of a timebase happening in hand (assumption 6): the groups whose seal point or commit instant
it has reached and that the group table has yet to take up, and whether it brought the hold count to its limit. -/
structure Due where
  sealPoint : Table8 Bool
  commitInstant : Table8 Bool
  hold : Bool
deriving DecidableEq, Repr

/-- Nothing is due. -/
def Due.none : Due := { sealPoint := .fill false, commitInstant := .fill false, hold := false }

/-- The state of the device. `due`, `choices` and `pending` are the model's own; `reply` is what the initiator sees on
its latest transaction. -/
structure State where
  run : RunState
  mode : Mode
  timebase : Timebase
  windows : Table8 Window
  port : Port
  reply : Option Reply
  groups : Table8 Group
  commitQueue : List GroupNum
  engine : Option DrainContext
  arbiter : Arbiter
  watch : Option WatchContext
  records : RecordUnit
  link : Link
  irq : Bool
  due : Due
  choices : Nat
  pending : List Instr
deriving DecidableEq, Repr

/-- The device right after power-on, RESET high: every block at its POWER-ON values, PWR set, running in BYPASS
(R177; assumption 1). -/
def State.reset : State :=
  { run := .running, mode := .bypass, timebase := Timebase.initial, windows := .fill Window.initial, port := .free
    reply := none, groups := .fill Group.initial, commitQueue := [], engine := none, arbiter := Arbiter.initial
    watch := none, records := RecordUnit.initial, link := Link.initial, irq := false, due := Due.none, choices := 0
    pending := [] }

/-- No command of the block stops the machine: there is no fault. -/
inductive Fault where
deriving DecidableEq, Repr

/-- Why a command has no meaning. -/
inductive Refusal where
  /-- A command that is not modelled, by its mnemonic: raised by an arm of `exec` that has no meaning yet (none is
  left). Safe: the machine stops where the hardware goes on. -/
  | notModelled (mnemonic : String)
deriving DecidableEq, Repr

end Sys2Proof.Machine
end

