-- ==== Sys2Proof/Machine/Ops.lean ====
section
/-! DEFINITION. The named operations that the blocks share: lanes, saturating counts, distances on the circle of TIME,
address ranges, and the updates of one block of the state. -/

namespace Sys2Proof.Machine

/-! ## Lanes (R2, R11, R25) -/

/-- The bits of the lanes of a lane set: lane k is bits 8k+7 to 8k (11, opening). -/
def laneMask (l : Lanes) : Word :=
  (if l.getLsbD 3 then 0xFF#8 else 0#8) ++ (if l.getLsbD 2 then 0xFF#8 else 0#8) ++
    (if l.getLsbD 1 then 0xFF#8 else 0#8) ++ (if l.getLsbD 0 then 0xFF#8 else 0#8)

/-- `new` in the lanes of `l`, `old` in the others. -/
def overlay (old new : Word) (l : Lanes) : Word :=
  (old &&& ~~~(laneMask l)) ||| (new &&& laneMask l)

/-! ## Counts and TIME -/

/-- A saturating 16-bit count (0.6.5). -/
def satAdd (a k : Nat) : Nat := min (a + k) Config.countMax

/-- The distance from `a` to `b` on the circle of 2^48 values (R81). -/
def distance (a b : Time) : Nat := (b - a).toNat

/-- `b` is later than `a` (R81). -/
def isLater (a b : Time) : Bool := decide (1 ≤ distance a b ∧ distance a b < 2 ^ 47)

/-- `b` is at or before `a` (R81). -/
def atOrBefore (a b : Time) : Bool := decide (distance b a < 2 ^ 47)

/-- `x` is passed over by the move from `t0` to `t1` (R38). -/
def passedOver (t0 t1 x : Time) : Bool := decide (1 ≤ distance t0 x ∧ distance t0 x ≤ distance t0 t1)

/-! ## Address ranges -/

/-- The half-open byte ranges `[a, a + m)` and `[b, b + n)` share a byte (R98). -/
def rangesMeet (a m b n : Nat) : Bool := decide (0 < m ∧ 0 < n ∧ a < b + n ∧ b < a + m)

/-- The byte address lies in `[b, b + n)` (R95). -/
def inRange (addr : Addr) (b n : Nat) : Bool := decide (b ≤ addr.toNat ∧ addr.toNat < b + n)

/-- `(a − b) mod n` for indices of a ring of `n` slots (R144). -/
def ringSub (a b n : Nat) : Nat := (a + n - b % n) % n

/-! ## Updates of one block -/

namespace State

/-- Group `g`. -/
def group (s : State) (g : GroupNum) : Group := s.groups.get g

/-- Group `g` replaced. -/
def setGroup (s : State) (g : GroupNum) (x : Group) : State := { s with groups := s.groups.set g x }

/-- Group `g` changed by `f`. -/
def modifyGroup (s : State) (g : GroupNum) (f : Group → Group) : State := s.setGroup g (f (s.group g))

/-- The timebase replaced. -/
def setTimebase (s : State) (t : Timebase) : State := { s with timebase := t }

/-- The record unit replaced. -/
def setRecords (s : State) (r : RecordUnit) : State := { s with records := r }

/-- The link and status block replaced. -/
def setLink (s : State) (l : Link) : State := { s with link := l }

/-- The arbiter replaced. -/
def setArbiter (s : State) (a : Arbiter) : State := { s with arbiter := a }

/-- The initiator port replaced. -/
def setPort (s : State) (p : Port) : State := { s with port := p }

/-- The drain engine replaced. -/
def setEngine (s : State) (e : Option DrainContext) : State := { s with engine := e }

/-- The due marks replaced. -/
def setDue (s : State) (d : Due) : State := { s with due := d }

/-- The mode replaced. -/
def setMode (s : State) (m : Mode) : State := { s with mode := m }

/-- The group number appended at the tail of the commit queue (R55). -/
def enqueue (s : State) (g : GroupNum) : State := { s with commitQueue := s.commitQueue ++ [g] }

/-- The initiator is answered and the port becomes FREE (R101). -/
def answer (s : State) (r : Reply) : State := { s with port := .free, reply := some r }

/-- TIME. -/
def time (s : State) : Time := s.timebase.time

/-- The device is running (R176). -/
def runs (s : State) : Bool := s.run == .running

end State

/-- The timebase is frozen (R78). -/
def Timebase.frozen (t : Timebase) : Bool := t.freezeEnable && t.freezeLine

/-! ## Groups -/

/-- The number of entries in both lists (R6). -/
def Group.occupancy (x : Group) : Nat := x.filling.length + x.outgoing.length

/-- The busy states (R30). -/
def GroupState.busy : GroupState → Bool
  | .queued | .draining | .stalled => true
  | .off | .opened | .armed | .sealed => false

/-- The seal point of a ONESHOT or PERIODIC group with this next instant (R31). -/
def Group.sealPointOf (x : Group) (instant : Time) : Time := instant - x.guardTicks.setWidth 48

/-- The trigger works from TIME (R31). -/
def Trigger.timed : Trigger → Bool
  | .oneshot | .periodic => true
  | .manual | .cycle => false

/-- The entry of a list for a word address (R5, R11). -/
def findEntry (l : List Entry) (a : Addr) : Option Entry := l.find? (fun e => e.addr == a)

/-- Every entry of every group, the pool's entries in use (R1). -/
def State.poolUsed (s : State) : Nat := (s.groups.toList.map Group.occupancy).sum

/-- The free count (R1). -/
def State.freeCount (s : State) : Nat := Config.poolSize - s.poolUsed

/-- The staging store is empty (R163). -/
def State.storeEmpty (s : State) : Bool :=
  s.groups.toList.all (fun x => x.filling.isEmpty && x.outgoing.isEmpty)

/-- The eight group numbers in ascending order (R38, R55, R167). -/
def allGroups : List GroupNum := [0, 1, 2, 3, 4, 5, 6, 7]

/-- A pass over the groups in ascending number. -/
def State.forGroups (s : State) (f : GroupNum → State → State) : State :=
  allGroups.foldl (fun acc g => f g acc) s

/-! ## Windows -/

/-- An address matches a window (R95). -/
def Window.matchesAddr (w : Window) (a : Addr) : Bool := w.enabled && inRange a w.base.toNat w.size.toNat

/-- The window an address matches (R95; the lowest-numbered one, assumption 20). -/
def State.matchWindow (s : State) (a : Addr) : Option WindowNum :=
  allGroups.find? (fun i => (s.windows.get i).matchesAddr a)

/-! ## Arbiter -/

/-- A request of a requester enters its place (R119). -/
def State.request (s : State) (o : Owner) (r : Request) : State :=
  s.setArbiter (match o with
    | .drain => { s.arbiter with drainPlace := some r }
    | .record => { s.arbiter with recordPlace := some r }
    | .initiator => { s.arbiter with initiatorPlace := some r })

/-- A requester withdraws its request: its place becomes empty (R120). -/
def State.withdraw (s : State) (o : Owner) : State :=
  s.setArbiter (match o with
    | .drain => { s.arbiter with drainPlace := none }
    | .record => { s.arbiter with recordPlace := none }
    | .initiator => { s.arbiter with initiatorPlace := none })

/-- The outstanding transaction has ended: the arbiter becomes IDLE (R123). -/
def State.endTransaction (s : State) : State := s.setArbiter { s.arbiter with outstanding := none }

/-- The owner of the outstanding transaction. -/
def Arbiter.owner (a : Arbiter) : Option Owner := a.outstanding.map (·.1)

/-- A transaction requested unchanged (R103). -/
def requestOf (t : Transaction) : Request :=
  { addr := t.addr, dir := t.dir, lanes := t.lanes, data := t.data }

end Sys2Proof.Machine
end

