-- ==== Sys2Proof/Machine/Flags.lean ====
section
/-! DEFINITION. The sticky flags and the change count (R188, R189), and the condition of the IRQ line (R159). -/

namespace Sys2Proof.Machine

/-- The flags that a flag-setting event of a running device sets (R189). -/
inductive Flag where
  | srst | tail | stall | ringerr | frame
deriving DecidableEq, Repr

/-- The flag set. -/
def StatusFlags.raise (f : StatusFlags) : Flag → StatusFlags
  | .srst => { f with srst := true }
  | .tail => { f with tail := true }
  | .stall => { f with stall := true }
  | .ringerr => { f with ringerr := true }
  | .frame => { f with frame := true }

/-- A flag-setting event: the flag is set and the change count increases by 1, wrapping (R188, R189). -/
def Link.raise (l : Link) (f : Flag) : Link :=
  { l with flags := l.flags.raise f, changeCount := l.changeCount + 1 }

/-- A flag-setting event of the device. -/
def State.raise (s : State) (f : Flag) : State := s.setLink (s.link.raise f)

/-- The flags byte (TABLE 11(b), note 3). -/
def StatusFlags.toByte (f : StatusFlags) : Byte :=
  0#1 ++ BitVec.ofBool f.frame ++ BitVec.ofBool f.ringerr ++ BitVec.ofBool f.stall ++ BitVec.ofBool f.tail ++
    BitVec.ofBool f.srst ++ BitVec.ofBool f.hrst ++ BitVec.ofBool f.pwr

/-- The flags named in the mask cleared (R191). -/
def StatusFlags.clearMask (f : StatusFlags) (m : Byte) : StatusFlags :=
  { pwr := f.pwr && !m.getLsbD 0, hrst := f.hrst && !m.getLsbD 1, srst := f.srst && !m.getLsbD 2
    tail := f.tail && !m.getLsbD 3, stall := f.stall && !m.getLsbD 4, ringerr := f.ringerr && !m.getLsbD 5
    frame := f.frame && !m.getLsbD 6 }

/-- The unconsumed count U (R144). -/
def RecordUnit.unconsumed (r : RecordUnit) : Nat := ringSub r.producer r.consumer r.capacity

/-- The free count of the ring (R144). -/
def RecordUnit.free (r : RecordUnit) : Nat := r.capacity - 1 - r.unconsumed

/-- The three terms of the IRQ condition (R159). -/
def irqCondition (r : RecordUnit) (f : StatusFlags) : Bool :=
  (r.enabled && r.urgentMark.isSome) ||
    (r.enabled && decide (0 < r.threshold) && decide (r.threshold ≤ r.unconsumed)) ||
    (f.tail || f.stall || f.ringerr)

/-- The line follows its condition (R159). -/
def State.refreshIrq (s : State) : State := { s with irq := irqCondition s.records s.link.flags }

end Sys2Proof.Machine
end

