-- ==== Sys2Proof/Machine/Records.lean ====
section
/-! DEFINITION. The record unit: the record queue and the lost count (R142, R143), the record's eight words (R196), the
ring writer (R149 to R153) and the tail snoop (R154, R155). -/

namespace Sys2Proof.Machine

/-! ## The record format (R196) -/

/-- The contents of a record by their places in the eight words (TABLE 11(e)). -/
structure RecordFields where
  kind : BitVec 8
  source : BitVec 8
  error : Bool := false
  isWrite : Bool := false
  lanes : Lanes := 0
  code : BitVec 4 := 0
  firstTime : Time := 0
  firstAux : Nat := 0
  addr : Addr := 0
  data : Word := 0
  secondTime : Time := 0
  secondAux : Nat := 0
deriving DecidableEq, Repr

/-- The cause code of an OVERRUN record (TABLE 11(f)). -/
def OverrunCause.code : OverrunCause → BitVec 4
  | .busy => 1
  | .jump => 2

/-- The cause code of a REFUSED record (TABLE 11(f)). -/
def RefusedCause.code : RefusedCause → BitVec 4
  | .quota => 1
  | .pool => 2
  | .timeout => 3
  | .reset => 4

/-- The step code of a FAULT record (TABLE 11(f)). -/
def Step.code : Step → BitVec 4
  | .start => 1
  | .entry => 2
  | .finish => 3

/-- The source byte of a window or group number. -/
def sourceByte (i : Fin 8) : BitVec 8 := BitVec.ofNat 8 i.val

/-- The placement of a record's contents by its kind (TABLE 11(f)). -/
def RecordBody.fields : RecordBody → RecordFields
  | .watch w t a d l x e rt ga =>
    { kind := 1, source := sourceByte w, error := e, isWrite := d == .write, lanes := l, firstTime := t
      firstAux := ga, addr := a, data := x, secondTime := rt }
  | .commitDone g ep n sch st et =>
    { kind := 2, source := sourceByte g, firstTime := et, firstAux := (ep.extractLsb' 0 16).toNat
      addr := sch.extractLsb' 0 32, data := sch.extractLsb' 32 16 ++ BitVec.ofNat 16 n
      secondTime := st, secondAux := (ep.extractLsb' 16 16).toNat }
  | .late g t a l m =>
    { kind := 3, source := sourceByte g, lanes := l, firstTime := t, addr := a, secondTime := m }
  | .overrun g t c k =>
    { kind := 4, source := sourceByte g, code := c.code, firstTime := t, firstAux := k }
  | .fault g t st a =>
    { kind := 5, source := sourceByte g, code := st.code, firstTime := t, addr := a }
  | .refused g t c a l =>
    { kind := 6, source := sourceByte g, code := c.code, lanes := l, firstTime := t, addr := a }
  | .abandoned g t ep n =>
    { kind := 7, source := sourceByte g, firstTime := t, firstAux := n, data := ep }
  | .lost t n =>
    { kind := 8, source := 0, firstTime := t, firstAux := n }

/-- Word `k` of a record (TABLE 11(e)); `seq` is its sequence number. -/
def recordWord (q : QueuedRecord) (seq : BitVec 32) (k : Nat) : Word :=
  let f := q.body.fields
  match k with
  | 0 => f.code ++ f.lanes ++ 0#5 ++ BitVec.ofBool f.isWrite ++ BitVec.ofBool f.error ++ BitVec.ofBool q.urgent ++
      f.source ++ f.kind
  | 1 => f.firstTime.extractLsb' 0 32
  | 2 => BitVec.ofNat 16 f.firstAux ++ f.firstTime.extractLsb' 32 16
  | 3 => f.addr
  | 4 => f.data
  | 5 => f.secondTime.extractLsb' 0 32
  | 6 => BitVec.ofNat 16 f.secondAux ++ f.secondTime.extractLsb' 32 16
  | _ => seq

/-- The head word (R197): the generation in bits 31..16, P in bits 15..0. -/
def headWord (p gen : Nat) : Word := BitVec.ofNat 16 gen ++ BitVec.ofNat 16 p

/-! ## The record queue (R142, R143) -/

/-- The urgency mask's choice for a record's kind: bit (kind code − 1) (R157, TABLE 11(b) note 4). -/
def urgentFor (mask : BitVec 8) (b : RecordBody) : Bool := mask.getLsbD (b.fields.kind.toNat - 1)

/-- A record at the tail of the queue, with its urgency flag (R142, R157). -/
def RecordUnit.append (r : RecordUnit) (b : RecordBody) : RecordUnit :=
  { r with queue := r.queue ++ [{ body := b, urgent := urgentFor r.urgencyMask b }] }

/-- A record handed over: discarded, dropped into the lost count, or appended (R142). -/
def RecordUnit.handOver (r : RecordUnit) (b : RecordBody) : RecordUnit :=
  if !r.enabled then r
  else if Config.recordQueueSize ≤ r.queue.length then { r with lostCount := satAdd r.lostCount 1 }
  else r.append b

/-- Where the queue has a free place and the lost count is above 0, a LOST record is appended and the lost count
returns to 0 (R143). -/
def RecordUnit.appendLost (r : RecordUnit) (t : Time) : RecordUnit :=
  if r.queue.length < Config.recordQueueSize ∧ 0 < r.lostCount then
    { r.append (.lost t r.lostCount) with lostCount := 0 }
  else r

/-- A record handed over to the device's record unit. -/
def State.handOver (s : State) (b : RecordBody) : State := s.setRecords (s.records.handOver b)

/-! ## The ring writer (R149 to R152) -/

/-- A write of all four lanes by the device itself (R59, R150, R151). -/
def deviceWrite (a : Addr) (x : Word) : Request := { addr := a, dir := .write, lanes := Lanes.all, data := x }

/-- The address of word `k` of slot `slot`: base + 32S + 4k (R144). -/
def RecordUnit.slotWord (r : RecordUnit) (slot k : Nat) : Addr :=
  BitVec.ofNat 32 (r.base.toNat + Config.slotBytes * slot + 4 * k)

/-- The writer takes a task and requests its word (R149). -/
def State.writerRequest (s : State) (t : WriterTask) (q : Request) : State :=
  (s.setRecords { s.records with writer := some (t, .requested) }).request .record q

/-- The writer becomes IDLE. -/
def State.writerIdle (s : State) : State := s.setRecords { s.records with writer := none }

/-- The writer requests word `k` of the record at the head of the queue, in slot `slot` with number `seq` (R150). -/
def State.requestRecordWord (s : State) (k slot : Nat) (seq : BitVec 32) : State :=
  match s.records.queue with
  | [] => s.writerIdle
  | q :: _ => s.writerRequest (.record k slot seq) (deviceWrite (s.records.slotWord slot k) (recordWord q seq k))

/-- The writer requests the initial head word (R146, R151). -/
def State.requestInitialHead (s : State) : State :=
  s.writerRequest .initialHead (deviceWrite s.records.headAddr (headWord 0 0))

/-- The conditions under which the IDLE writer begins a record (R149). -/
def State.canBeginRecord (s : State) : Bool :=
  s.records.writer.isNone && s.records.enabled && !s.records.queue.isEmpty && decide (0 < s.records.free) &&
    s.mode != .resetting

/-- The writer begins the record at the head of the queue in slot P with the present record sequence (R149). -/
def State.beginRecord (s : State) : State := s.requestRecordWord 0 s.records.producer s.records.sequence

/-- P, the generation and the record sequence after a completed record (R150, steps 1 and 2). -/
def RecordUnit.advance (r : RecordUnit) : RecordUnit :=
  { r with
    producer := (r.producer + 1) % r.capacity
    generation := if r.producer + 1 = r.capacity then (r.generation + 1) % 65536 else r.generation
    sequence := r.sequence + 1 }

/-- The record at the head leaves the queue; a waiting loss is then reported (R143, R150 step 3). -/
def RecordUnit.leaveHead (r : RecordUnit) (t : Time) : RecordUnit :=
  RecordUnit.appendLost { r with queue := r.queue.tail } t

/-- The OK response to word 7 completes the record (R150). -/
def State.completeRecord (s : State) (slot : Nat) : State :=
  let urgent := (s.records.queue.head?.map (·.urgent)).getD false
  let s1 := s.setRecords (s.records.advance.leaveHead s.time)
  s1.writerRequest (.head s1.records.producer s1.records.generation slot urgent)
    (deviceWrite s1.records.headAddr (headWord s1.records.producer s1.records.generation))

/-- How many records an abandoned record loses: 1, and for a LOST record its count as well (R152). -/
def RecordBody.lossOf : RecordBody → Nat
  | .lost _ n => n + 1
  | .watch .. | .commitDone .. | .late .. | .overrun .. | .fault .. | .refused .. | .abandoned .. => 1

/-- An ERROR response to a record word abandons the record (R152). In RESETTING the ERROR sets no flag and counts no
loss (R153). -/
def State.abandonRecord (s : State) : State :=
  let loss := (s.records.queue.head?.map (·.body.lossOf)).getD 1
  if s.mode = .resetting then
    s.setRecords { s.records with queue := s.records.queue.tail, writer := none }
  else
    let r := { s.records with queue := s.records.queue.tail, lostCount := satAdd s.records.lostCount loss, writer := none }
    (s.setRecords (r.appendLost s.time)).raise .ringerr

/-- The response to a disowned word has no effect but that the writer becomes IDLE, or requests the initial head word
of the ring enabled meanwhile (R146, R148), which it does not begin in RESETTING (R153). -/
def State.disownedResponse (s : State) (thenInitialHead : Bool) : State :=
  if thenInitialHead && s.mode != .resetting then s.requestInitialHead else s.writerIdle

/-- The response to a record word (R150, R152). -/
def State.recordWordResponse (s : State) (k slot : Nat) (seq : BitVec 32) (ok : Bool) : State :=
  if !ok then s.abandonRecord
  else if k < 7 then s.requestRecordWord (k + 1) slot seq
  else s.completeRecord slot

/-- The slot is still unconsumed (R158). -/
def RecordUnit.slotUnconsumed (r : RecordUnit) (slot : Nat) : Bool :=
  decide (ringSub slot r.consumer r.capacity < r.unconsumed)

/-- The urgent mark at the head word response of an urgent record (R158). -/
def RecordUnit.markUrgent (r : RecordUnit) (slot : Nat) (urgent : Bool) : RecordUnit :=
  if urgent && r.slotUnconsumed slot then { r with urgentMark := some slot } else r

/-- An ERROR response to a head word sets RINGERR, except in RESETTING (R151, R153). -/
def State.headError (s : State) (ok : Bool) : State :=
  if ok || s.mode == .resetting then s else s.raise .ringerr

/-- The response to a head word (R151): the urgent mark is set, OK or ERROR alike, and the writer becomes IDLE. -/
def State.headResponse (s : State) (slot : Nat) (urgent ok : Bool) : State :=
  ((s.headError ok).setRecords (s.records.markUrgent slot urgent)).writerIdle

/-- The response to the initial head word (R151). -/
def State.initialHeadResponse (s : State) (ok : Bool) : State := (s.headError ok).writerIdle

/-! ## The tail snoop (R154, R155) -/

/-- A valid tail update (R154). -/
def RecordUnit.validTail (r : RecordUnit) (lanes : Lanes) (v : Nat) : Bool :=
  lanes == Lanes.all && decide (v < r.capacity) && decide (ringSub v r.consumer r.capacity ≤ r.unconsumed)

/-- The urgent mark after the slots from C up to `v` are consumed (R158). -/
def RecordUnit.markAfter (r : RecordUnit) (v : Nat) : Option Nat :=
  match r.urgentMark with
  | none => none
  | some m => if ringSub m r.consumer r.capacity < ringSub v r.consumer r.capacity then none else some m

/-- The tail snoop of a write to the tail word (R154, R155). -/
def State.tailSnoop (s : State) (t : Transaction) : State :=
  let v := (t.data.extractLsb' 0 16).toNat
  if s.records.validTail t.lanes v then
    s.setRecords { s.records with consumer := v, urgentMark := s.records.markAfter v }
  else s.raise .tail

/-! ## The ring's addresses (R144, R145) -/

/-- The bytes of the ring area. -/
def ringBytes (capacity : Nat) : Nat := Config.slotBytes * capacity

/-- A word address lies in the ring area or is the head word or the tail word of an enabled ring (R44). -/
def RecordUnit.holdsWord (r : RecordUnit) (a : Addr) : Bool :=
  r.enabled && (inRange a r.base.toNat (ringBytes r.capacity) || a == r.headAddr || a == r.tailAddr)

/-- A range meets the ring area, the head word or the tail word of an enabled ring (R98). -/
def RecordUnit.meetsRange (r : RecordUnit) (base size : Nat) : Bool :=
  r.enabled && (rangesMeet base size r.base.toNat (ringBytes r.capacity) ||
    rangesMeet base size r.headAddr.toNat 4 || rangesMeet base size r.tailAddr.toNat 4)

end Sys2Proof.Machine
end

