-- ==== Sys2Proof/Machine/Store.lean ====
section
/-! DEFINITION. The staging store: placement by merge or by a new entry (R10 to R15), late writes (R35), releases (R4) and
the held write they may place (R20), refusals (R16, R19), and the staged lanes of a read (R25, R26). -/

namespace Sys2Proof.Machine

/-! ## Placement -/

/-- The write merged into an entry (R11). -/
def Entry.merge (e : Entry) (t : Transaction) : Entry :=
  { e with data := overlay e.data t.data t.lanes, lanes := e.lanes ||| t.lanes }

/-- The write merged into the entry of its word address in a list (R11). -/
def mergeInto (l : List Entry) (t : Transaction) : List Entry :=
  l.map (fun e => if e.addr = t.addr then e.merge t else e)

/-- The write as a new entry at the tail of a list (R3). -/
def allocateIn (l : List Entry) (t : Transaction) : List Entry :=
  l ++ [{ addr := t.addr, data := t.data, lanes := t.lanes }]

/-- The instant a late write missed (R35). -/
def Group.missedInstant (x : Group) : Time :=
  match x.trigger with
  | .oneshot | .periodic => x.nextInstant.getD x.sealTime
  | .cycle | .manual => x.sealTime

/-- The LATE record of a late write placed in group `g` at TIME `now` (R35). -/
def Group.lateRecord (x : Group) (g : GroupNum) (now : Time) (t : Transaction) : RecordBody :=
  .late g now t.addr t.lanes x.missedInstant

/-- A placement in SEALED is a late write: it is counted and, where asked for, reported (R15, R35). -/
def State.judgeLateness (s : State) (g : GroupNum) (t : Transaction) : State :=
  let x := s.group g
  if x.state = .sealed then
    let s1 := s.modifyGroup g (fun y => { y with lateCount := satAdd y.lateCount 1 })
    if x.reportLates then s1.handOver (x.lateRecord g s.time t) else s1
  else s

/-- Placement by merge (R11). -/
def State.placeMerge (s : State) (g : GroupNum) (t : Transaction) : State :=
  (s.modifyGroup g (fun x => { x with filling := mergeInto x.filling t })).judgeLateness g t

/-- Placement by a new entry (R3, R12). -/
def State.placeNew (s : State) (g : GroupNum) (t : Transaction) : State :=
  (s.modifyGroup g (fun x => { x with filling := allocateIn x.filling t })).judgeLateness g t

/-- The two room conditions (R12, R20). -/
def State.hasRoom (s : State) (g : GroupNum) : Bool :=
  decide ((s.group g).occupancy < (s.group g).quota) && decide (0 < s.freeCount)

/-- The cause of full (R13). -/
def State.fullCause (s : State) (g : GroupNum) : RefusedCause :=
  if (s.group g).quota ≤ (s.group g).occupancy then .quota else .pool

/-- A refused write: a REFUSED record, ERROR to the initiator, the port FREE (R16, R19, R23). -/
def State.refuseWrite (s : State) (g : GroupNum) (cause : RefusedCause) (t : Transaction) : State :=
  (s.handOver (.refused g s.time cause t.addr t.lanes)).answer .error

/-! ## The held write -/

/-- The held write is held for this group. -/
def Port.heldFor (p : Port) (g : GroupNum) : Bool :=
  match p with
  | .held _ h _ _ => h == g
  | .free | .passing _ => false

/-- The conditions under which the held write is placed (R20). -/
def State.canPlaceHeld (s : State) : Bool :=
  match s.port with
  | .held _ g .room _ => s.mode == .active && s.hasRoom g
  | .held _ _ .mode _ | .free | .passing _ => false

/-- The held write placed and answered OK (R20). -/
def State.placeHeld (s : State) : State :=
  match s.port with
  | .held t g _ _ => (s.placeNew g t.tx).answer .okWrite
  | .free | .passing _ => s

/-- The held write reconsidered (R4, R20, R43). -/
def State.reconsiderHeld (s : State) : State := if s.canPlaceHeld then s.placeHeld else s

/-- The LATE record that the placement of the held write would hand over now, with its group; none where the write would not be
placed, would not be late, or its group asks for no report (R15, R20, R35). -/
def State.heldLate (s : State) : Option (GroupNum × RecordBody) :=
  match s.port with
  | .held t g _ _ =>
    if s.canPlaceHeld && (s.group g).state == .sealed && (s.group g).reportLates then
      some (g, (s.group g).lateRecord g s.time t.tx)
    else none
  | .free | .passing _ => none

/-- A held write that expires is refused with cause TIMEOUT (R19). -/
def State.expireHeld (s : State) : State :=
  match s.port with
  | .held t g _ _ => s.refuseWrite g .timeout t.tx
  | .free | .passing _ => s

/-- A write that ceases to be held passes to memory (R22, R112): the port is PASSING and the write is requested. -/
def State.passHeld (s : State) : State :=
  match s.port with
  | .held t _ _ _ => (s.setPort (.passing { t with disposition := .pass })).request .initiator (requestOf t.tx)
  | .free | .passing _ => s

/-! ## Releases (R4) -/

/-- The oldest filling entry of a group is released (R9). -/
def State.releaseFilling (s : State) (g : GroupNum) : State :=
  (s.modifyGroup g (fun x => { x with filling := x.filling.tail })).reconsiderHeld

/-- The oldest outgoing entry of a group leaves its list (R8). -/
def State.dropOutgoing (s : State) (g : GroupNum) : State :=
  s.modifyGroup g (fun x => { x with outgoing := x.outgoing.tail })

/-- The oldest outgoing entry of a group is released (R8). -/
def State.releaseOutgoing (s : State) (g : GroupNum) : State := (s.dropOutgoing g).reconsiderHeld

/-- `n` releases from the filling list (R9). -/
def State.releaseFillings (s : State) (g : GroupNum) : Nat → State
  | 0 => s
  | n + 1 => (s.releaseFilling g).releaseFillings g n

/-! ## Read views (R24 to R26) -/

/-- The lane set of an entry that may be absent. -/
def lanesOf : Option Entry → Lanes
  | none => 0
  | some e => e.lanes

/-- The lanes of an entry laid over a word. -/
def overlayEntry (w : Word) : Option Entry → Word
  | none => w
  | some e => overlay w e.data e.lanes

/-- A word with the group's staged lanes laid over it: the filling entry is the newer source (R25). -/
def Group.overlayWord (x : Group) (a : Addr) (w : Word) : Word :=
  overlayEntry (overlayEntry w (findEntry x.outgoing a)) (findEntry x.filling a)

/-- All four lanes of the word are staged (R25). -/
def Group.allStaged (x : Group) (a : Addr) : Bool :=
  (lanesOf (findEntry x.filling a) ||| lanesOf (findEntry x.outgoing a)) == Lanes.all

end Sys2Proof.Machine
end

