-- ==== Sys2Proof/Machine/Triggers.lean ====
section
/-! DEFINITION. The group table's own operations: seal (R33), commit (R34), overrun (R37), the points a tick, a SYNC edge or
a TIME SET reaches (R32, R38), the end of an epoch (R40) and the flush (R167, R169). -/

namespace Sys2Proof.Machine

/-! ## Seal and commit -/

/-- The filling list becomes the outgoing list (R7). -/
def Group.sealLists (x : Group) : Group := { x with filling := [], outgoing := x.filling }

/-- A group seals (R33). -/
def State.sealGroup (s : State) (g : GroupNum) : State :=
  s.modifyGroup g (fun x => { x.sealLists with sealTime := s.time, state := .sealed })

/-- The fields a group takes at its commit instant (R34). -/
def Group.committed (x : Group) (t : Time) : Group :=
  match x.trigger with
  | .oneshot =>
    { x with state := .queued, epochInstant := x.nextInstant.getD t, nextInstant := none, returnState := .opened }
  | .periodic =>
    { x with
      state := .queued, epochInstant := x.nextInstant.getD t
      nextInstant := x.nextInstant.map (· + x.period.setWidth 48), returnState := .armed }
  | .cycle => { x with state := .queued, epochInstant := t, nextInstant := none, returnState := .armed }
  | .manual => { x with state := .queued, epochInstant := t, nextInstant := none, returnState := .opened }

/-- A SEALED group enters the commit queue at its commit instant (R34). -/
def State.commitGroup (s : State) (g : GroupNum) : State :=
  (s.modifyGroup g (fun x => x.committed s.time)).enqueue g

/-- The commit instant of a group is reached: only a SEALED group enters the commit queue (R32). -/
def State.reachCommitInstant (s : State) (g : GroupNum) : State :=
  if (s.group g).state = .sealed then s.commitGroup g else s

/-! ## Overrun (R37) -/

/-- An overrun of `k` instants counted and reported. -/
def State.countOverrun (s : State) (g : GroupNum) (cause : OverrunCause) (k : Nat) : State :=
  (s.modifyGroup g (fun x => { x with overrunCount := satAdd x.overrunCount k })).handOver
    (.overrun g s.time cause (min k Config.countMax))

/-- The schedule after an overrun with cause BUSY (R37). -/
def Group.skipInstant (x : Group) : Group :=
  match x.trigger with
  | .periodic => { x with nextInstant := x.nextInstant.map (· + x.period.setWidth 48) }
  | .oneshot => { x with nextInstant := none, returnState := .opened }
  | .cycle | .manual => x

/-- The seal point of a group is reached: an ARMED group seals, a busy group with return state ARMED overruns (R32). -/
def State.reachSealPoint (s : State) (g : GroupNum) : State :=
  match (s.group g).state with
  | .armed => s.sealGroup g
  | .queued | .draining | .stalled =>
    if (s.group g).returnState = .armed then (s.countOverrun g .busy 1).modifyGroup g Group.skipInstant else s
  | .off | .opened | .sealed => s

/-! ## Points reached by a tick or a SYNC edge (R32, R87) -/

/-- The seal point of a group is reached by an event after which TIME is `t` and the position `p`; `timeMoved` and
`posMoved` say which of the two the event changed. -/
def Group.sealPointReachedAt (x : Group) (t : Time) (p : Nat) (timeMoved posMoved : Bool) : Bool :=
  match x.trigger with
  | .oneshot | .periodic => timeMoved && x.nextInstant.any (fun n => x.sealPointOf n == t)
  | .cycle => posMoved && p + x.guardTicks.toNat == x.cycleOffset.toNat
  | .manual => false

/-- The commit instant of a group is reached by such an event. -/
def Group.commitInstantReachedAt (x : Group) (t : Time) (p : Nat) (timeMoved posMoved : Bool) : Bool :=
  match x.trigger with
  | .oneshot | .periodic => timeMoved && x.nextInstant == some t
  | .cycle => posMoved && p == x.cycleOffset.toNat
  | .manual => false

/-- The timebase hands the group table what its event has reached (R75, R88); points are evaluated in ACTIVE alone
(R32). -/
def State.markPoints (s : State) (timeMoved posMoved : Bool) : State :=
  if s.mode = .active then
    s.setDue { s.due with
      sealPoint := s.groups.map (fun x =>
        x.sealPointReachedAt s.time s.timebase.cyclePosition timeMoved posMoved)
      commitInstant := s.groups.map (fun x =>
        x.commitInstantReachedAt s.time s.timebase.cyclePosition timeMoved posMoved) }
  else s.setDue { s.due with sealPoint := .fill false, commitInstant := .fill false }

/-- A due commit instant is taken up (R34). -/
def State.takeUpCommit (s : State) (g : GroupNum) : State :=
  if s.due.commitInstant.get g then
    (s.setDue { s.due with commitInstant := s.due.commitInstant.set g false }).reachCommitInstant g
  else s

/-- A due seal point is taken up, and with it the commit instant reached in the same event (R33). -/
def State.takeUpSeal (s : State) (g : GroupNum) : State :=
  if s.due.sealPoint.get g then
    ((s.setDue { s.due with sealPoint := s.due.sealPoint.set g false }).reachSealPoint g).takeUpCommit g
  else s

/-- Every due point is taken up, in ascending group number (R142). -/
def State.takeUpPoints (s : State) : State := s.forGroups (fun g acc => (acc.takeUpSeal g).takeUpCommit g)

/-! ## Points passed over by a TIME SET (R38) -/

/-- The seal point of the group is passed over. -/
def Group.sealPassed (x : Group) (t0 t1 : Time) : Bool :=
  x.nextInstant.any (fun n => passedOver t0 t1 (x.sealPointOf n))

/-- The commit instant of the group is passed over. -/
def Group.commitPassed (x : Group) (t0 t1 : Time) : Bool := x.nextInstant.any (passedOver t0 t1)

/-- Step 1: an ARMED group whose seal point is passed over seals. -/
def State.jumpSeal (s : State) (g : GroupNum) (t0 t1 : Time) : State :=
  if (s.group g).state = .armed ∧ (s.group g).sealPassed t0 t1 then s.sealGroup g else s

/-- Steps 1 and 2: a SEALED group whose commit instant is passed over enters the commit queue. -/
def State.jumpCommit (s : State) (g : GroupNum) (t0 t1 : Time) : State :=
  if (s.group g).state = .sealed ∧ (s.group g).commitPassed t0 t1 then s.commitGroup g else s

/-- The next instant advanced by `k` periods (R38, R40). -/
def Group.advanceInstant (x : Group) (k : Nat) : Group :=
  { x with nextInstant := x.nextInstant.map (· + BitVec.ofNat 48 (k * x.period.toNat)) }

/-- The ONESHOT instant dropped, the return state OPEN (R38). -/
def Group.dropInstant (x : Group) : Group := { x with nextInstant := none, returnState := .opened }

/-- How many seal points of a PERIODIC group, from `n − guard` on, lie passed over (R38). -/
def Group.passedCount (x : Group) (t0 t1 n : Time) : Nat :=
  (distance t0 t1 - distance t0 (x.sealPointOf n)) / x.period.toNat + 1

/-- Step 3: a busy group with return state ARMED whose seal point is passed over overruns with cause JUMP. -/
def State.jumpOverrun (s : State) (g : GroupNum) (t0 t1 : Time) : State :=
  let x := s.group g
  match x.nextInstant with
  | none => s
  | some n =>
    if x.state.busy && x.returnState == .armed && passedOver t0 t1 (x.sealPointOf n) then
      match x.trigger with
      | .periodic =>
        let k := x.passedCount t0 t1 n
        (s.modifyGroup g (fun y => y.advanceInstant k)).countOverrun g .jump k
      | .oneshot => (s.modifyGroup g Group.dropInstant).countOverrun g .jump 1
      | .cycle | .manual => s
    else s

/-- A forward TIME SET in ACTIVE handles one group (R38). -/
def State.jumpGroup (t0 t1 : Time) (g : GroupNum) (s : State) : State :=
  if (s.group g).trigger.timed then ((s.jumpSeal g t0 t1).jumpCommit g t0 t1).jumpOverrun g t0 t1 else s

/-! ## The end of an epoch (R40, R169) -/

/-- How many instants a PERIODIC group coming back to ARMED at `t` skips: its seal point then lies after `t` (R40). -/
def Group.behindCount (x : Group) (t n : Time) : Nat := distance (x.sealPointOf n) t / x.period.toNat + 1

/-- The JUMP check of a group that has become ARMED (R40). -/
def State.checkPassedSeal (s : State) (g : GroupNum) : State :=
  let x := s.group g
  match x.nextInstant with
  | none => s
  | some n =>
    if atOrBefore s.time (x.sealPointOf n) then
      match x.trigger with
      | .periodic =>
        let k := x.behindCount s.time n
        (s.modifyGroup g (fun y => y.advanceInstant k)).countOverrun g .jump k
      | .oneshot =>
        (s.modifyGroup g (fun y => { y with nextInstant := none, state := .opened })).countOverrun g .jump 1
      | .cycle | .manual => s
    else s

/-- Group `g`, taking its state after an epoch that completes now, would hand over an OVERRUN record of cause JUMP (R40). -/
def State.returnJumps (s : State) (g : GroupNum) : Bool :=
  let x := s.group g
  s.mode == .active && x.returnState == .armed && x.trigger.timed &&
    x.nextInstant.any (fun n => atOrBefore s.time (x.sealPointOf n))

/-- The group takes its return state (R40). -/
def State.takeReturnState (s : State) (g : GroupNum) : State :=
  match (s.group g).returnState with
  | .armed =>
    let s1 := s.modifyGroup g (fun x => { x with state := .armed, returnState := .opened })
    if s.mode = .active then s1.checkPassedSeal g else s1
  | .opened => s.modifyGroup g (fun x => { x with state := .opened, nextInstant := none, returnState := .opened })

/-- The group OPEN with its arming dropped (R165, R167, R169). -/
def Group.disarmed (x : Group) : Group := { x with state := .opened, nextInstant := none, returnState := .opened }

/-- The flush seals and queues a group's filling list (R167, R169). -/
def State.flushSeal (s : State) (g : GroupNum) : State :=
  (s.modifyGroup g (fun x =>
    { x.sealLists with
      state := .queued, sealTime := s.time, epochInstant := s.time, nextInstant := none
      returnState := .opened })).enqueue g

/-- The group after its epoch in QUIESCING (R169). -/
def State.flushAfter (s : State) (g : GroupNum) : State :=
  if (s.group g).filling.isEmpty then s.modifyGroup g Group.disarmed else s.flushSeal g

/-- The group after its epoch: its return state, or the state the flush gives (R62 step 6). -/
def State.afterEpoch (s : State) (g : GroupNum) : State :=
  if s.mode = .quiescing then s.flushAfter g else s.takeReturnState g

/-- The first flush step at one group (R167). -/
def State.flushGroup (g : GroupNum) (s : State) : State :=
  match (s.group g).state with
  | .off | .queued | .draining | .stalled => s
  | .opened | .armed => s.flushAfter g
  | .sealed =>
    (s.modifyGroup g (fun x =>
      { x with
        state := .queued, epochInstant := x.nextInstant.getD s.time, nextInstant := none
        returnState := .opened })).enqueue g

end Sys2Proof.Machine
end

