-- ==== Sys2Proof/Machine/Drain.lean ====
section
/-! DEFINITION. The commit queue and the drain engine: the take (R58), the steps (R59, R60), completion (R62), faults (R63),
the abandoned end marker (R65), RETRY (R66) and ABANDON (R67, R68). -/

namespace Sys2Proof.Machine

/-! ## Steps (R59, R197) -/

/-- The marker word: the sequence in bits 30..0, the abandoned flag in bit 31 (R197). -/
def markerWord (abandoned : Bool) (sequence : BitVec 31) : Word := BitVec.ofBool abandoned ++ sequence

/-- The sequence of the START marker, (2E+1) mod 2^31 (R59). -/
def startSequence (e : BitVec 32) : BitVec 31 := BitVec.ofNat 31 (2 * e.toNat + 1)

/-- The sequence of the END marker, (2E+2) mod 2^31 (R59). -/
def endSequence (e : BitVec 32) : BitVec 31 := BitVec.ofNat 31 (2 * e.toNat + 2)

/-- The write of a step (R59); the END of an ABANDON END carries the sequence of the abandoned epoch, whose count was
E − 1 (R65). -/
def Group.stepRequest (x : Group) (kind : DrainKind) : Step → Request
  | .start => deviceWrite (x.marker.getD 0) (markerWord false (startSequence x.epoch))
  | .entry =>
    match x.outgoing with
    | [] => deviceWrite 0 0
    | e :: _ => { addr := e.addr, dir := .write, lanes := e.lanes, data := e.data }
  | .finish =>
    match kind with
    | .epoch => deviceWrite (x.marker.getD 0) (markerWord false (endSequence x.epoch))
    | .abandonEnd => deviceWrite (x.marker.getD 0) (markerWord true (endSequence (x.epoch - 1)))

/-- The engine requests a step (R59). -/
def State.requestStep (s : State) (g : GroupNum) (kind : DrainKind) (step : Step) : State :=
  (s.setEngine (some { group := g, kind := kind, step := step, status := .requested })).request .drain
    ((s.group g).stepRequest kind step)

/-! ## Completion (R62, R64, R65) -/

/-- The COMMIT_DONE record of an epoch (R64); `x` has the count after the increment. -/
def Group.commitDone (x : Group) (g : GroupNum) (now : Time) : RecordBody :=
  .commitDone g x.epoch x.progress.entriesWritten x.epochInstant x.progress.startTime now

/-- The progress record of a completed epoch (R57). -/
def Progress.completed (p : Progress) : Progress :=
  { p with begun := false, entriesWritten := 0, abandonPending := false }

/-- Steps 1 to 4 of a completion, and the engine IDLE (R62). -/
def State.finishEpoch (s : State) (g : GroupNum) : State :=
  let s1 := s.modifyGroup g (fun x => { x with epoch := x.epoch + 1 })
  let s2 := if (s1.group g).reportCommits then s1.handOver ((s1.group g).commitDone g s1.time) else s1
  (s2.modifyGroup g (fun x => { x with faultStep := none, progress := x.progress.completed })).setEngine none

/-- The completion of the abandoned epoch, and the engine IDLE (R65). -/
def State.finishAbandon (s : State) (g : GroupNum) : State :=
  (s.modifyGroup g (fun x => { x with faultStep := none, progress := x.progress.completed })).setEngine none

/-! ## The take (R58) -/

/-- What a take leads to: a step of a drain of some kind, or the completion of the epoch at the take. -/
inductive TakeOutcome where
  | step (kind : DrainKind) (step : Step)
  | completes
deriving DecidableEq, Repr

/-- The first step of an epoch the engine has not taken before (R58). -/
def Group.firstStep (x : Group) : TakeOutcome :=
  if x.marker.isSome then .step .epoch .start
  else if x.outgoing.isEmpty then .completes
  else .step .epoch .entry

/-- The first step of a take (R58, table). -/
def Group.takeOutcome (x : Group) : TakeOutcome :=
  if x.progress.abandonPending then .step .abandonEnd .finish
  else if !x.progress.begun then x.firstStep
  else
    match x.faultStep with
    | some st => .step .epoch st
    | none => x.firstStep

/-- The progress record at a take (R58). -/
def Progress.taken (p : Progress) (now : Time) : Progress :=
  if p.begun then p else { p with begun := true, entriesWritten := 0, startTime := now }

/-- The conditions of a take (R58). -/
def State.canTake (s : State) : Bool :=
  s.engine.isNone && !s.commitQueue.isEmpty && s.mode != .resetting

/-- The head of the commit queue is taken (R58): the group, what its take leads to, and the device with the number off the
queue and the group DRAINING; none where no take is due. -/
def State.takeHead (s : State) : Option (GroupNum × TakeOutcome × State) :=
  if s.canTake then
    match s.commitQueue with
    | [] => none
    | g :: rest =>
      some (g, (s.group g).takeOutcome, ({ s with commitQueue := rest }).modifyGroup g (fun x =>
        { x with state := .draining, progress := x.progress.taken s.time }))
  else none

/-! ## The group table's part of a happening that completes epochs (R62 step 6)

Such a happening may also release entries, and the first release that makes room places the held write (R20, R21). The LATE
record of that write stands at the release, but for one case (log entry 10): R142 asks ascending group number of the group
table's records in one happening, so it waits for its group's turn where an OVERRUN record of a lower number follows. -/

/-- A release of a happening in which the epochs of the groups `done` complete: the held write may be placed (R20). Its LATE
record is handed over here, or is given back to be handed over at its group's turn, with the number of that group (R142). -/
def State.releaseInTurn (s : State) (done : List GroupNum) : State × Option (GroupNum × RecordBody) :=
  match s.heldLate with
  | none => (s.reconsiderHeld, none)
  | some (h, b) =>
    if done.any (fun d => decide (d < h) && s.returnJumps d) then (s.reconsiderHeld.setRecords s.records, some (h, b))
    else (s.reconsiderHeld, none)

/-- `n` releases from the outgoing list of group `g` (R8), in a happening in which the epochs of the groups `done` complete,
with the LATE record that waits. -/
def State.releaseOutgoings (s : State) (g : GroupNum) (done : List GroupNum) : Nat → State × Option (GroupNum × RecordBody)
  | 0 => (s, none)
  | n + 1 =>
    let first := (s.dropOutgoing g).releaseInTurn done
    let others := first.1.releaseOutgoings g done n
    (others.1, first.2.or others.2)

/-- The LATE record that waits is handed over where it is group `g`'s turn (R142). -/
def State.handOverLate (s : State) (late : Option (GroupNum × RecordBody)) (g : GroupNum) : State :=
  match late with
  | none => s
  | some (h, b) => if h = g then s.handOver b else s

/-- What the group table does at the end of a happening in which the epochs of the groups `done` have completed, in ascending
group number, so that its records stand in that order (R142): the LATE record that waits is handed over at its group's turn,
and each of `done` takes its state after its epoch (R62 step 6). -/
def State.groupTurn (s : State) (late : Option (GroupNum × RecordBody)) (done : List GroupNum) : State :=
  s.forGroups (fun g acc =>
    let a := acc.handOverLate late g
    if done.contains g then a.afterEpoch g else a)

/-- The takes that are due, one after another (R58, R62 step 5): a take that asks for a step makes the engine BUSY; an epoch
that completes at its take joins `done`, the groups whose epochs have completed in this happening, and the next take follows.
Then the group table takes its turn (R62 step 6). The number bounds the takes. -/
def State.takeChain (s : State) (late : Option (GroupNum × RecordBody)) (done : List GroupNum) : Nat → State
  | 0 => s.groupTurn late done
  | n + 1 =>
    match s.takeHead with
    | none => s.groupTurn late done
    | some (g, .step kind step, s1) => (s1.requestStep g kind step).groupTurn late done
    | some (g, .completes, s1) => (s1.finishEpoch g).takeChain late (g :: done) n

/-- Every take that is due at present: each queued number is taken at most once. -/
def State.takeAll (s : State) (late : Option (GroupNum × RecordBody)) (done : List GroupNum) : State :=
  s.takeChain late done s.commitQueue.length

/-- The queued groups whose epochs complete at their takes where the engine becomes IDLE now (R58, R62). -/
def State.completing (s : State) : List GroupNum :=
  s.commitQueue.takeWhile (fun g => decide ((s.group g).takeOutcome = .completes))

/-- The engine takes the next queued group, if any, and so on while takes are due (R58); then it takes what the flush has
queued for the epochs that completed at a take (R169), which always asks for a step. -/
def State.takeNext (s : State) : State := (s.takeAll none []).takeAll none []

/-! ## Responses (R60, R63, R65) -/

/-- The epoch of group `g` completes at a response, with the LATE record that waits for its turn (R62). -/
def State.completeEpoch (s : State) (late : Option (GroupNum × RecordBody)) (g : GroupNum) : State :=
  (s.finishEpoch g).takeAll late [g]

/-- The abandoned epoch of group `g` completes at a response (R65). -/
def State.completeAbandon (s : State) (g : GroupNum) : State := (s.finishAbandon g).takeAll none [g]

/-- A step answered ERROR stalls the group (R63, R65). -/
def State.stallGroup (s : State) (g : GroupNum) (step : Step) (addr : Addr) : State :=
  let s1 := s.modifyGroup g (fun x => { x with faultStep := some step, faultAddr := addr, state := .stalled })
  ((s1.handOver (.fault g s.time step addr)).raise .stall).setEngine none

/-- An ENTRY answered OK: the entry leaves its list and is counted (R8, R60). -/
def State.entryWritten (s : State) (g : GroupNum) : State :=
  (s.dropOutgoing g).modifyGroup g (fun x =>
    { x with progress := { x.progress with entriesWritten := x.progress.entriesWritten + 1 } })

/-- The engine goes on after an ENTRY answered OK, whose release may place the held write (R20, R60). -/
def State.afterEntry (s : State) (g : GroupNum) : State :=
  if !(s.group g).outgoing.isEmpty then s.reconsiderHeld.requestStep g .epoch .entry
  else if (s.group g).marker.isSome then s.reconsiderHeld.requestStep g .epoch .finish
  else
    let r := s.releaseInTurn (g :: s.completing)
    r.1.completeEpoch r.2 g

/-- A step of the drain context answered OK (R60, R65). -/
def State.stepWritten (s : State) (c : DrainContext) : State :=
  match c.kind, c.step with
  | .abandonEnd, _ => s.completeAbandon c.group
  | .epoch, .start =>
    if (s.group c.group).outgoing.isEmpty then s.requestStep c.group .epoch .finish
    else s.requestStep c.group .epoch .entry
  | .epoch, .entry => (s.entryWritten c.group).afterEntry c.group
  | .epoch, .finish => s.completeEpoch none c.group

/-- The response to a step in RESETTING: an ENTRY answered OK releases its entry, and nothing else follows (R71). -/
def State.stepResponseInReset (s : State) (c : DrainContext) (ok : Bool) : State :=
  if ok && c.step == .entry then s.releaseOutgoing c.group else s

/-- Memory's response to the step of context `c`, whose write was to `addr` (R60, R63, R65, R71). -/
def State.stepResponse (s : State) (c : DrainContext) (addr : Addr) (ok : Bool) : State :=
  if s.mode = .resetting then s.stepResponseInReset c ok
  else if ok then s.stepWritten c
  else s.stallGroup c.group c.step addr

/-! ## RETRY and ABANDON (R66 to R68) -/

/-- A STALLED group goes back to the commit queue (R66). -/
def State.requeue (s : State) (g : GroupNum) : State :=
  (s.modifyGroup g (fun x => { x with state := .queued })).enqueue g

/-- Steps 2 to 4 of an ABANDON that released `dropped` entries (R67). -/
def State.countAbandoned (s : State) (g : GroupNum) (dropped : Nat) : State :=
  (s.handOver (.abandoned g s.time ((s.group g).epoch + 1) dropped)).modifyGroup g (fun x =>
    { x with epoch := x.epoch + 1, progress := { x.progress with entriesWritten := 0, begun := false } })

/-- Step 5 of an ABANDON of a group with a marker (R67). -/
def State.pendAbandon (s : State) (g : GroupNum) : State :=
  (s.modifyGroup g (fun x => { x with progress := { x.progress with abandonPending := true } })).requeue g

/-- Step 5 of an ABANDON of a group without a marker, with the LATE record that waits for its turn (R67). -/
def State.closeAbandon (s : State) (late : Option (GroupNum × RecordBody)) (g : GroupNum) : State :=
  (s.modifyGroup g (fun x => { x with faultStep := none, progress := x.progress.completed })).groupTurn late [g]

/-- An accepted GROUP ABANDON (R67, R68): the releases, the first of which to make room places the held write (R21), then the
ABANDONED record and the end of the epoch. -/
def State.abandonGroup (s : State) (g : GroupNum) : State :=
  let x := s.group g
  let dropped := x.outgoing.length
  if x.progress.abandonPending then s.requeue g
  else if x.marker.isSome then ((s.releaseOutgoings g [] dropped).1.countAbandoned g dropped).pendAbandon g
  else
    let r := s.releaseOutgoings g [g] dropped
    (r.1.countAbandoned g dropped).closeAbandon r.2 g

end Sys2Proof.Machine
end

