-- ==== Sys2Proof/Machine/Arbitration.lean ====
section
/-! DEFINITION. The grant (R121), the order of requests made at one moment (R122), the completions of the flush (R171) and
of the soft reset (R174), and what follows every happening at once. -/

namespace Sys2Proof.Machine

/-! ## The grant -/

/-- The request in a requester's place (R119). -/
def Arbiter.place (a : Arbiter) : Owner → Option Request
  | .drain => a.drainPlace
  | .record => a.recordPlace
  | .initiator => a.initiatorPlace

/-- The requesters in grant order (R121). -/
def grantOrder : List Owner := [.drain, .record, .initiator]

/-- The requesters whose places are full, in grant order. -/
def Arbiter.waiting (a : Arbiter) : List Owner := grantOrder.filter (fun o => (a.place o).isSome)

/-- The granted request leaves its place and becomes the outstanding transaction (R121). -/
def Arbiter.grant (a : Arbiter) (o : Owner) : Arbiter :=
  match a.place o with
  | none => a
  | some q =>
    match o with
    | .drain => { a with outstanding := some (o, q), drainPlace := none }
    | .record => { a with outstanding := some (o, q), recordPlace := none }
    | .initiator => { a with outstanding := some (o, q), initiatorPlace := none }

/-- Grants ahead of a watched access that still waits in its place (R134). -/
def State.countGrantAhead (s : State) (o : Owner) : State :=
  if o = .initiator ∨ s.arbiter.initiatorPlace.isNone then s
  else { s with watch := s.watch.map (fun w => { w with grantsAhead := satAdd w.grantsAhead 1 }) }

/-- The requester's own record of its grant: REQUESTED becomes OUTSTANDING (R59, R149). -/
def State.markOutstanding (s : State) : Owner → State
  | .drain => s.setEngine (s.engine.map (fun c => { c with status := .outstanding }))
  | .record => s.setRecords { s.records with writer := s.records.writer.map (fun w => (w.1, .outstanding)) }
  | .initiator => s

/-- The arbiter grants the request of `o` (R121). -/
def State.grantTo (s : State) (o : Owner) : State :=
  ((s.countGrantAhead o).markOutstanding o).setArbiter (s.arbiter.grant o)

/-- The arbiter can grant: it is IDLE and the mode is not RESETTING (R121, R128). -/
def State.canGrant (s : State) : Bool := s.arbiter.outstanding.isNone && s.mode != .resetting

/-- The highest waiting request is granted (R121). -/
def State.grantHighest (s : State) : State :=
  match s.arbiter.waiting with
  | [] => s
  | o :: _ => s.grantTo o

/-- The requests that stood before this happening, or that its response's owner makes on receiving its answer (R122):
`before` is the state in which the happening was taken. -/
def State.inPlace (before s : State) : List Owner :=
  s.arbiter.waiting.filter (fun o => (before.arbiter.place o).isSome || before.arbiter.owner == some o)

/-- One use of the free values of R122. -/
def State.nextChoice (s : State) : State := { s with choices := s.choices + 1 }

/-- Requests reach an IDLE arbiter at one moment: the one taken first is granted, in either order (R122). -/
def State.grantArrivals (s : State) : State :=
  match s.arbiter.waiting with
  | [] => s
  | [o] => s.grantTo o
  | o :: rest =>
    s.nextChoice.grantTo ((o :: rest).getD (Config.firstArrival s.choices % (o :: rest).length) o)

/-- The grant at another requester's response: a request made at that moment by a requester higher than those in place
is taken before or after the response, in either order (R122). -/
def State.grantAtResponse (before s : State) : State :=
  match before.inPlace s, s.arbiter.waiting with
  | [], _ => s.grantArrivals
  | o :: _, w :: _ =>
    if o = w then s.grantTo o
    else s.nextChoice.grantTo (if Config.requestFirst s.choices then w else o)
  | _ :: _, [] => s

/-- The grant that follows a happening taken in state `before` (R121, R122). -/
def State.arbitrate (before s : State) : State :=
  if s.canGrant then
    if before.arbiter.outstanding.isSome || !before.arbiter.waiting.isEmpty then before.grantAtResponse s
    else s.grantArrivals
  else s

/-! ## The completion of the flush (R171) -/

/-- The group is OFF, or OPEN with empty lists. -/
def Group.flushed (x : Group) : Bool :=
  x.state == .off || (x.state == .opened && x.filling.isEmpty && x.outgoing.isEmpty)

/-- The conditions of R171. -/
def State.flushDone (s : State) : Bool :=
  s.mode == .quiescing && s.groups.toList.all Group.flushed && s.commitQueue.isEmpty && s.engine.isNone

/-- The mode becomes BYPASS, and a write held with reason MODE passes to memory (R112, R171). -/
def State.completeFlush (s : State) : State := (s.setMode .bypass).passHeld

/-! ## The completion of the soft reset (R174) -/

/-- The conditions of R174: RESETTING, and the memory port idle. -/
def State.softResetDone (s : State) : Bool := s.mode == .resetting && s.arbiter.outstanding.isNone

/-- The status block at the completion of a soft reset (R174 step 2, TABLE 10(c)). -/
def Link.softReset (l : Link) : Link :=
  Link.raise { l with
    lastResult := .ok
    flags := { StatusFlags.clear with pwr := l.flags.pwr, hrst := l.flags.hrst } } .srst

/-- The initiator port keeps a transaction withdrawn under R113, as a plain pass-through. -/
def Port.afterSoftReset : Port → Port
  | .passing t => .passing { t with disposition := .pass, window := none }
  | .free | .held .. => .free

/-- The kept transaction is requested again (R113, R174 step 4). -/
def State.requestKept (s : State) : State :=
  match s.port with
  | .passing t => s.request .initiator (requestOf t.tx)
  | .free | .held .. => s

/-- Every block takes its soft-reset values (R174). -/
def State.completeSoftReset (s : State) : State :=
  State.requestKept
    { s with
      mode := .bypass, windows := .fill Window.initial, port := s.port.afterSoftReset
      groups := .fill Group.initial, commitQueue := [], engine := none, arbiter := Arbiter.initial, watch := none
      records := RecordUnit.initial, link := s.link.softReset, due := Due.none }

/-! ## What follows a happening at once -/

/-- The flush completes when its conditions hold (R171). -/
def State.settleFlush (s : State) : State := if s.flushDone then s.completeFlush else s

/-- The soft reset completes when its conditions hold (R174). -/
def State.settleSoftReset (s : State) : State := if s.softResetDone then s.completeSoftReset else s

/-- The IDLE ring writer begins a record when its conditions hold (R149). -/
def State.settleWriter (s : State) : State := if s.canBeginRecord then s.beginRecord else s

/-- What follows at once on a happening that was taken in state `before` and left `s`: the takes (R58), the completion of
the flush (R171) or of the soft reset (R174), the beginning of a record (R149), the grant (R121), and the IRQ line
(R159). -/
def State.settle (before s : State) : State :=
  (before.arbitrate s.takeNext.settleFlush.settleSoftReset.settleWriter).refreshIrq

/-- The outcome of a happening: what it does, and what follows at once. A device that does not run takes none (R176). -/
def happening (s : State) (f : State → State) : Host.Outcome State Fault Refusal :=
  .next (if s.runs then s.settle (f s) else s)

end Sys2Proof.Machine
end

