-- ==== Sys2Proof/Machine/Operands.lean ====
section
/-! DEFINITION. The operand forms of the management link: bytes and values (R195), the codes of TABLE 11(b) and TABLE 11(c),
the parameters of each write command, and the read data of each read command (TABLE 11(d)). -/

namespace Sys2Proof.Machine

/-! ## Values as bytes, most significant byte first (R195) -/

/-- The value of a run of bytes. -/
def beNat (bs : List Byte) : Nat := bs.foldl (fun acc b => acc * 256 + b.toNat) 0

/-- The value of the `len` bytes from byte `off` on. -/
def field (ps : List Byte) (off len : Nat) : Nat := beNat ((ps.drop off).take len)

/-- A value as `len` bytes. -/
def beBytes : Nat → Nat → List Byte
  | 0, _ => []
  | len + 1, v => BitVec.ofNat 8 (v / 256 ^ len) :: beBytes len v

/-- A byte's eight bits, most significant first (R180), as a byte. -/
def byteOfBits (bits : List Bool) : Byte := BitVec.ofNat 8 (bits.foldl (fun acc b => 2 * acc + b.toNat) 0)

/-- A byte's bits as the link carries them, most significant first (R180). -/
def bitsOfByte (b : Byte) : List Bool :=
  [b.getLsbD 7, b.getLsbD 6, b.getLsbD 5, b.getLsbD 4, b.getLsbD 3, b.getLsbD 2, b.getLsbD 1, b.getLsbD 0]

/-- The bits of a run of bytes. -/
def bitsOf (bs : List Byte) : List Bool := bs.flatMap bitsOfByte

/-! ## Codes (TABLE 11(b), TABLE 11(c)) -/

/-- A yes/no byte (R195). -/
def yesNo : Nat → Option Bool
  | 0 => some false
  | 1 => some true
  | _ => none

/-- A window or group number (R185). -/
def numberOf (n : Nat) : Option (Fin 8) := if h : n < 8 then some ⟨n, h⟩ else none

/-- TABLE 11(c). -/
def syncSelectOf : Nat → Option SyncSelect
  | 0 => some .none
  | 1 => some .rise
  | 2 => some .fall
  | 3 => some .both
  | _ => none

/-- TABLE 11(c). -/
def windowKindOf : Nat → Option WindowKind
  | 0 => some .stage
  | 1 => some .watch
  | _ => none

/-- TABLE 11(c). -/
def readViewOf : Nat → Option ReadView
  | 0 => some .memory
  | 1 => some .staged
  | _ => none

/-- TABLE 11(c). -/
def fullPolicyOf : Nat → Option FullPolicy
  | 0 => some .refuse
  | 1 => some .wait
  | _ => none

/-- TABLE 11(c). -/
def watchOnOf : Nat → Option WatchOn
  | 0 => some .writes
  | 1 => some .reads
  | 2 => some .both
  | _ => none

/-- TABLE 11(c). -/
def triggerOf : Nat → Option Trigger
  | 0 => some .manual
  | 1 => some .oneshot
  | 2 => some .periodic
  | 3 => some .cycle
  | _ => none

/-- The codes of the modes. -/
def Mode.code : Mode → Nat
  | .bypass => 0
  | .active => 1
  | .quiescing => 2
  | .resetting => 3

/-- The codes of the window kinds. -/
def WindowKind.code : WindowKind → Nat
  | .stage => 0
  | .watch => 1

/-- The codes of the read views. -/
def ReadView.code : ReadView → Nat
  | .memory => 0
  | .staged => 1

/-- The codes of the full policies. -/
def FullPolicy.code : FullPolicy → Nat
  | .refuse => 0
  | .wait => 1

/-- The codes of watch on. -/
def WatchOn.code : WatchOn → Nat
  | .writes => 0
  | .reads => 1
  | .both => 2

/-- The codes of the triggers. -/
def Trigger.code : Trigger → Nat
  | .manual => 0
  | .oneshot => 1
  | .periodic => 2
  | .cycle => 3

/-- The codes of the group states. -/
def GroupState.code : GroupState → Nat
  | .off => 0
  | .opened => 1
  | .armed => 2
  | .sealed => 3
  | .queued => 4
  | .draining => 5
  | .stalled => 6

/-- The codes of the return states. -/
def ReturnState.code : ReturnState → Nat
  | .opened => 0
  | .armed => 1

/-- The codes of the fault steps. -/
def faultStepCode : Option Step → Nat
  | none => 0
  | some .start => 1
  | some .entry => 2
  | some .finish => 3

/-- The result codes (TABLE 10(a)). -/
def Result.code : Result → Byte
  | .ok => 0x00
  | .busy => 0x01
  | .state => 0x02
  | .param => 0x03
  | .conflict => 0x04
  | .length => 0x05
  | .unknown => 0x06
  | .stale => 0x07
  | .frame => 0x08

/-- Write or read, with the parameter byte count (TABLE 11(b)). -/
inductive CommandForm where
  | write (count : Nat)
  | read (count : Nat)
deriving DecidableEq, Repr

/-- The parameter byte count. -/
def CommandForm.count : CommandForm → Nat
  | .write n => n
  | .read n => n

/-- TABLE 11(b): the form of each defined command code. -/
def commandForm (code : Byte) : Option CommandForm :=
  match code.toNat with
  | 0x01 => some (.read 0)
  | 0x02 => some (.read 0)
  | 0x03 => some (.write 2)
  | 0x04 => some (.write 1)
  | 0x05 => some (.write 0)
  | 0x08 => some (.write 5)
  | 0x09 => some (.write 6)
  | 0x0A => some (.read 0)
  | 0x0B => some (.write 5)
  | 0x10 => some (.write 16)
  | 0x11 => some (.read 1)
  | 0x20 => some (.write 21)
  | 0x21 => some (.write 7)
  | 0x22 => some (.write 1)
  | 0x23 => some (.write 1)
  | 0x24 => some (.write 1)
  | 0x25 => some (.write 1)
  | 0x26 => some (.read 1)
  | 0x27 => some (.write 1)
  | 0x28 => some (.write 1)
  | 0x30 => some (.write 18)
  | 0x31 => some (.read 0)
  | _ => none

/-! ## Parameters of the write commands (TABLE 11(b)) -/

/-- TICK SET: divisor field, freeze enable, hold limit. -/
structure TickParams where
  divisorField : Nat
  freezeEnable : Option Bool
  holdLimit : Nat
deriving DecidableEq, Repr

/-- TICK SET's parameter bytes. -/
def TickParams.parse (ps : List Byte) : TickParams :=
  { divisorField := field ps 0 2, freezeEnable := yesNo (field ps 2 1), holdLimit := field ps 3 2 }

/-- The divisor a field value gives: 0 gives 65536 (R76). -/
def divisorOf (v : Nat) : Nat := if v = 0 then 65536 else v

/-- CYCLE SET: cycle length, SYNC edge. -/
structure CycleParams where
  length : Nat
  edge : Option SyncSelect
deriving DecidableEq, Repr

/-- CYCLE SET's parameter bytes. -/
def CycleParams.parse (ps : List Byte) : CycleParams :=
  { length := field ps 0 4, edge := syncSelectOf (field ps 4 1) }

/-- WINDOW SET's parameters; a code that is undefined or a number above 7 is `none`. -/
structure WindowParams where
  number : Option WindowNum
  enabled : Option Bool
  kind : Option WindowKind
  base : Nat
  size : Nat
  group : Option GroupNum
  readView : Option ReadView
  fullPolicy : Option FullPolicy
  watchOn : Option WatchOn
  watchData : Option Bool
deriving DecidableEq, Repr

/-- WINDOW SET's parameter bytes. -/
def WindowParams.parse (ps : List Byte) : WindowParams :=
  { number := numberOf (field ps 0 1), enabled := yesNo (field ps 1 1), kind := windowKindOf (field ps 2 1)
    base := field ps 3 4, size := field ps 7 4, group := numberOf (field ps 11 1)
    readView := readViewOf (field ps 12 1), fullPolicy := fullPolicyOf (field ps 13 1)
    watchOn := watchOnOf (field ps 14 1), watchData := yesNo (field ps 15 1) }

/-- The window record the parameters give; none where a code is undefined or the group is above 7 (R96). -/
def WindowParams.window (p : WindowParams) : Option Window := do
  let enabled ← p.enabled
  let kind ← p.kind
  let group ← p.group
  let readView ← p.readView
  let fullPolicy ← p.fullPolicy
  let watchOn ← p.watchOn
  let watchData ← p.watchData
  return { enabled := enabled, kind := kind, base := BitVec.ofNat 32 p.base, size := BitVec.ofNat 32 p.size
           group := group, readView := readView, fullPolicy := fullPolicy, watchOn := watchOn, watchData := watchData }

/-- GROUP SET's parameters; a code that is undefined or a number above 7 is `none`. -/
structure GroupParams where
  number : Option GroupNum
  trigger : Option Trigger
  period : Nat
  cycleOffset : Nat
  guardTicks : Nat
  quota : Nat
  markerPresent : Option Bool
  markerAddr : Nat
  reportCommits : Option Bool
  reportLates : Option Bool
deriving DecidableEq, Repr

/-- GROUP SET's parameter bytes. -/
def GroupParams.parse (ps : List Byte) : GroupParams :=
  { number := numberOf (field ps 0 1), trigger := triggerOf (field ps 1 1), period := field ps 2 4
    cycleOffset := field ps 6 4, guardTicks := field ps 10 2, quota := field ps 12 2
    markerPresent := yesNo (field ps 14 1), markerAddr := field ps 15 4
    reportCommits := yesNo (field ps 19 1), reportLates := yesNo (field ps 20 1) }

/-- The configuration fields GROUP SET writes (R29). -/
structure GroupConfig where
  trigger : Trigger
  period : BitVec 32
  cycleOffset : BitVec 32
  guardTicks : BitVec 16
  quota : Nat
  marker : Option Addr
  reportCommits : Bool
  reportLates : Bool
deriving DecidableEq, Repr

/-- The configuration the parameters give; none where a code is undefined (R42 step 2). -/
def GroupParams.config (p : GroupParams) : Option GroupConfig := do
  let trigger ← p.trigger
  let present ← p.markerPresent
  let commits ← p.reportCommits
  let lates ← p.reportLates
  return { trigger := trigger, period := BitVec.ofNat 32 p.period, cycleOffset := BitVec.ofNat 32 p.cycleOffset
           guardTicks := BitVec.ofNat 16 p.guardTicks, quota := p.quota
           marker := if present then some (BitVec.ofNat 32 p.markerAddr) else none
           reportCommits := commits, reportLates := lates }

/-- RING SET's parameters. -/
structure RingParams where
  enable : Option Bool
  base : Nat
  capacity : Nat
  headAddr : Nat
  tailAddr : Nat
  threshold : Nat
  urgencyMask : Byte
deriving DecidableEq, Repr

/-- RING SET's parameter bytes. -/
def RingParams.parse (ps : List Byte) : RingParams :=
  { enable := yesNo (field ps 0 1), base := field ps 1 4, capacity := field ps 5 2, headAddr := field ps 7 4
    tailAddr := field ps 11 4, threshold := field ps 15 2, urgencyMask := BitVec.ofNat 8 (field ps 17 1) }

/-! ## Read data (TABLE 11(d)) -/

/-- A yes/no byte. -/
def flagByte (b : Bool) : List Byte := beBytes 1 b.toNat

/-- IDENTIFY's read data (R193). -/
def identifyData : List Byte :=
  beBytes 1 0x46 ++ beBytes 2 0x2408 ++ beBytes 1 0x01 ++ beBytes 2 256 ++ beBytes 1 8 ++ beBytes 1 8 ++ beBytes 1 16

/-- STATUS READ's read data (R190). -/
def State.statusData (s : State) : List Byte :=
  beBytes 1 s.mode.code ++ flagByte s.timebase.frozen ++ [s.link.flags.toByte] ++ beBytes 1 s.link.changeCount.toNat ++
    beBytes 2 s.freeCount ++ beBytes 1 s.commitQueue.length ++
    beBytes 1 ((s.engine.map (fun c => c.group.val)).getD 0xFF) ++ beBytes 1 s.records.queue.length

/-- TIME READ's read data (R85). -/
def State.timeData (s : State) : List Byte :=
  beBytes 6 s.time.toNat ++ beBytes 4 s.timebase.cyclePosition ++ beBytes 4 s.timebase.cycleNumber.toNat

/-- WINDOW READ's read data (R100). -/
def Window.data (w : Window) : List Byte :=
  flagByte w.enabled ++ beBytes 1 w.kind.code ++ beBytes 4 w.base.toNat ++ beBytes 4 w.size.toNat ++
    beBytes 1 w.group.val ++ beBytes 1 w.readView.code ++ beBytes 1 w.fullPolicy.code ++ beBytes 1 w.watchOn.code ++
    flagByte w.watchData

/-- GROUP READ's read data (R53). -/
def Group.data (x : Group) : List Byte :=
  beBytes 1 x.state.code ++ beBytes 1 x.trigger.code ++ flagByte x.nextInstant.isSome ++
    beBytes 6 (x.nextInstant.getD 0).toNat ++ beBytes 4 x.period.toNat ++ beBytes 4 x.cycleOffset.toNat ++
    beBytes 2 x.guardTicks.toNat ++ beBytes 2 x.quota ++ flagByte x.marker.isSome ++
    beBytes 4 (x.marker.getD 0).toNat ++ flagByte x.reportCommits ++ flagByte x.reportLates ++
    beBytes 4 x.epoch.toNat ++ beBytes 2 x.overrunCount ++ beBytes 2 x.lateCount ++ beBytes 1 x.returnState.code ++
    beBytes 6 x.epochInstant.toNat ++ beBytes 6 x.sealTime.toNat ++ beBytes 1 (faultStepCode x.faultStep) ++
    beBytes 4 x.faultAddr.toNat ++ beBytes 2 x.filling.length ++ beBytes 2 x.outgoing.length

/-- RING READ's read data (R161). -/
def RecordUnit.data (r : RecordUnit) : List Byte :=
  flagByte r.enabled ++ beBytes 4 r.base.toNat ++ beBytes 2 r.capacity ++ beBytes 4 r.headAddr.toNat ++
    beBytes 4 r.tailAddr.toNat ++ beBytes 2 r.threshold ++ [r.urgencyMask] ++ beBytes 2 r.producer ++
    beBytes 2 r.generation ++ beBytes 2 r.consumer ++ beBytes 2 r.unconsumed ++ flagByte r.urgentMark.isSome ++
    beBytes 2 (r.urgentMark.getD 0) ++ beBytes 1 r.queue.length ++ beBytes 2 r.lostCount ++
    beBytes 4 r.sequence.toNat

/-- The snapshot a read command takes at the completion of its command byte (R182). -/
def State.snapshot (s : State) (code : Byte) : Snapshot :=
  match code.toNat with
  | 0x01 => .whole identifyData
  | 0x02 => .whole s.statusData
  | 0x0A => .whole s.timeData
  | 0x11 => .windows s.windows
  | 0x26 => .groups s.groups
  | 0x31 => .whole s.records.data
  | _ => .none

/-- The read data of a snapshot, once the number of WINDOW READ and GROUP READ is known; none for a number above 7
(R185). -/
def Snapshot.data (n : Snapshot) (params : List Byte) : List Byte :=
  match n with
  | .none => []
  | .whole d => d
  | .windows w => ((numberOf (field params 0 1)).map (fun i => (w.get i).data)).getD []
  | .groups g => ((numberOf (field params 0 1)).map (fun i => (g.get i).data)).getD []

end Sys2Proof.Machine
end

