-- ==== Sys2Proof/Machine/Frame.lean ====
section
/-! DEFINITION. The frames of the management link: the frame shifter (R179 to R181), the checks at the rise of select (R183),
and the meaning shared by every command of the link. -/

namespace Sys2Proof.Machine

/-! ## The shifter -/

/-- Device byte `j`, the one sent while host byte `j` is received (R181). -/
def Shifter.deviceByte (f : Shifter) (j : Nat) : Byte :=
  match j with
  | 0 => f.byte0
  | 1 => 0
  | n + 2 => if f.phase = .data then (f.snapshot.data f.params).getD n 0 else 0

/-- The phase after the command byte (R179). -/
def phaseAfterCode (code : Byte) : Phase :=
  match commandForm code with
  | none => .excess
  | some (.write n) => if n = 0 then .excess else .parameters
  | some (.read n) => if n = 0 then .data else .parameters

/-- The phase after a parameter byte, with `n` parameter bytes now received (R179). -/
def phaseAfterParam (code : Byte) (n : Nat) : Phase :=
  match commandForm code with
  | none => .excess
  | some (.write c) => if n < c then .parameters else .excess
  | some (.read c) => if n < c then .parameters else .data

/-- A host byte is complete (R179, R182); `s` is the device at that moment. -/
def Shifter.takeByte (s : State) (f : Shifter) (b : Byte) : Shifter :=
  match f.phase with
  | .idle | .busy | .data | .excess => f
  | .command => { f with code := some b, phase := phaseAfterCode b, snapshot := s.snapshot b }
  | .parameters =>
    { f with
      params := f.params ++ [b]
      phase := match f.code with
        | none => .excess
        | some c => phaseAfterParam c (f.params.length + 1) }

/-- The bit that data out shows while a frame is open: the first bit of device byte 0 from the fall of select, and after
each falling edge of the link clock the bit that follows, most significant first (R180, R181). -/
def Shifter.shownBit (f : Shifter) : Bool := (f.deviceByte (f.bits / 8)).getLsbD (7 - f.bits % 8)

/-- One byte in each direction: the host's byte `b` received, the device's byte of the same place sent. -/
def Shifter.exchange (s : State) (f : Shifter) (b : Byte) : Shifter :=
  let g := f.takeByte s b
  { g with bits := f.bits + 8, unfinished := [], sent := f.sent ++ bitsOfByte (f.deviceByte (f.bits / 8)) }

/-- One period of the link clock (R180): at the rising edge the host's bit is sampled, and the host samples the bit shown; the
eighth bit completes a byte. After the falling edge `shownBit` of the result is on data out. -/
def Shifter.clockBit (s : State) (f : Shifter) (b : Bool) : Shifter :=
  let g :=
    if f.unfinished.length < 7 then { f with unfinished := f.unfinished ++ [b] }
    else { f.takeByte s (byteOfBits (f.unfinished ++ [b])) with unfinished := [] }
  { g with bits := f.bits + 1, sent := f.sent ++ [f.shownBit] }

/-- The shifter at the fall of select (R179, R181, R186). -/
def Shifter.opened (s : State) : Shifter :=
  { Shifter.idle with
    phase := if s.mode = .resetting then .busy else .command
    byte0 := s.link.lastResult.code }

/-! ## Select falls, bits are clocked, select rises -/

/-- The link's shifter replaced. -/
def State.setShifter (s : State) (f : Shifter) : State := s.setLink { s.link with shifter := f }

/-- Select falls on a running device: a frame opens (R179). -/
def State.selectFall (s : State) : State :=
  if s.link.selectLow then s else s.setLink { s.link with selectLow := true, shifter := Shifter.opened s }

/-- A frame is open: the link takes clock edges and bytes (R180). -/
def State.frameOpen (s : State) : Bool := s.link.shifter.phase != .idle

/-- Bits are clocked in, the first first (R180). -/
def State.clockBits (s : State) (bits : List Bool) : State :=
  if s.frameOpen then s.setShifter (bits.foldl (Shifter.clockBit s) s.link.shifter) else s

/-- Whole bytes are clocked in (R179). -/
def State.clockBytes (s : State) (bytes : List Byte) : State :=
  if s.frameOpen then s.setShifter (bytes.foldl (Shifter.exchange s) s.link.shifter) else s

/-- The level of data out: driven only while a frame is open (R179, R180). -/
def State.dataOutLevel (s : State) : Option Bool := if s.frameOpen then some s.link.shifter.shownBit else none

/-- A result becomes the last result (R184). -/
def State.setResult (s : State) (r : Result) : State := s.setLink { s.link with lastResult := r }

/-- The link as select rises: the shifter IDLE, its contents dropped, the bits it sent kept as what data out showed
(R179). -/
def State.selectRise (s : State) : State :=
  s.setLink { s.link with
    selectLow := false, shifter := Shifter.idle
    dataOut := if s.link.shifter.phase = .idle then s.link.dataOut else s.link.shifter.sent }

/-- The number of host bytes is wrong for the command (R183 step 5): a write wants its exact count after the command
byte, a read at least its count. -/
def wrongLength (form : CommandForm) (hostBytes : Nat) : Bool :=
  match form with
  | .write n => hostBytes != n + 1
  | .read n => decide (hostBytes < n + 1)

/-- The result of the checks of R183 up to step 5, for a frame that carried a bit; none where the command's own checks
are reached. -/
def Shifter.judge (f : Shifter) : Option Result :=
  if f.phase = .busy then some .busy
  else if f.bits % 8 ≠ 0 then some .frame
  else
    match f.code.bind commandForm with
    | none => some .unknown
    | some form => if wrongLength form (f.bits / 8) then some .length else none

/-- The effect of a frame that the checks of R183 refuse: its result, and for FRAME the flag. -/
def State.refuseFrame (s : State) (r : Result) : State :=
  if r = .frame then (s.raise .frame).setResult r else s.setResult r

/-- A command of the link: its code, its own checks (the first refusal that holds, R183 step 6), and its effect. -/
structure Command where
  code : Byte
  check : List Byte → State → Option Result
  effect : List Byte → State → State

/-- The command's own checks, and its effect where none refuses (R183 step 6). -/
def Command.run (c : Command) (ps : List Byte) (s : State) : State :=
  match c.check ps s with
  | some r => s.setResult r
  | none => c.effect ps (s.setResult .ok)

/-- The shifter holds a frame of another command than `code`: a complete command byte of another code. -/
def Shifter.otherCommand (f : Shifter) (code : Byte) : Bool := f.code.any (fun b => b != code)

/-- Select rises at the end of a frame (R179, R183). A frame of another command's code does not end by this command's
event (assumption 13). -/
def Command.rise (c : Command) (s : State) : State :=
  let f := s.link.shifter
  if f.otherCommand c.code then s
  else
    let s1 := s.selectRise
    if f.phase = .idle ∨ f.bits = 0 then s1
    else
      match f.judge with
      | some r => s1.refuseFrame r
      | none => c.run f.params s1

/-- The whole frame as one happening. -/
def Command.whole (c : Command) (params : List Byte) (s : State) : State :=
  if s.link.selectLow then s else c.rise ((s.selectFall).clockBytes (c.code :: params))

/-- What a frame event of the command does. -/
def Command.on (c : Command) (ev : FrameEvent) (s : State) : State :=
  match ev with
  | .whole params => c.whole params s
  | .fall => s.selectFall
  | .clock bits => s.clockBits bits
  | .rise => c.rise s

/-- The level of the select line after a frame event that the link does not take (R187). -/
def State.selectLine (s : State) (ev : FrameEvent) : State :=
  match ev with
  | .whole _ | .clock _ => s
  | .fall => s.setLink { s.link with selectLow := true }
  | .rise => s.setLink { s.link with selectLow := false }

/-- The outcome of a frame event: on a running device what it does and what follows at once; otherwise the select line
alone (R187). -/
def frameHappening (s : State) (c : Command) (ev : FrameEvent) : Host.Outcome State Fault Refusal :=
  .next (if s.runs then s.settle (c.on ev s) else s.selectLine ev)

/-! ## Helpers of the commands -/

/-- The number in the first parameter byte (R41, R185). -/
def paramNumber (ps : List Byte) : Option (Fin 8) := numberOf (field ps 0 1)

/-- The checks of a command whose first parameter is a group number: PARAM for a number above 7, then `check` (R41). -/
def checkGroup (ps : List Byte) (check : GroupNum → Option Result) : Option Result :=
  match paramNumber ps with
  | none => some .param
  | some g => check g

/-- The effect of a command on the group its first parameter names. -/
def onGroup (ps : List Byte) (s : State) (f : GroupNum → State) : State :=
  match paramNumber ps with
  | none => s
  | some g => f g

end Sys2Proof.Machine
end

