-- ==== Sys2Proof/Machine/GroupCommands.lean ====
section
/-! DEFINITION. The nine GROUP commands (R41 to R53, R66 to R68). -/

namespace Sys2Proof.Machine

/-! ## GROUP SET (R42 to R44) -/

/-- The marker address meets a window, another group's marker or the ring (R44). -/
def State.markerConflict (s : State) (g : GroupNum) (m : Addr) : Bool :=
  allGroups.any (fun i => (s.windows.get i).matchesAddr m) ||
    allGroups.any (fun h => h != g && (s.group h).state != .off && (s.group h).marker == some m) ||
    s.records.holdsWord m

/-- The PARAM refusals of steps 2 to 5 of R42 that follow the codes. -/
def GroupParams.badValues (p : GroupParams) (x : Group) (c : GroupConfig) : Bool :=
  (p.quota == 0 || decide (Config.poolSize < p.quota)) ||
    (x.state == .opened && decide (p.quota < x.occupancy)) ||
    (c.trigger == .periodic && (p.period == 0 || decide (p.period ≤ p.guardTicks))) ||
    (c.marker.isSome && p.markerAddr % 4 != 0)

/-- The refusals of GROUP SET, in the order of R42. -/
def checkGroupSet (ps : List Byte) (s : State) : Option Result :=
  let p := GroupParams.parse ps
  match p.number with
  | none => some .param
  | some g =>
    let x := s.group g
    if x.state ≠ .off ∧ x.state ≠ .opened then some .state
    else
      match p.config with
      | none => some .param
      | some c =>
        if p.badValues x c then some .param
        else if c.marker.any (s.markerConflict g) then some .conflict
        else none

/-- The configuration fields take the parameter values (R43). -/
def Group.configure (x : Group) (c : GroupConfig) : Group :=
  { x with
    trigger := c.trigger, period := c.period, cycleOffset := c.cycleOffset, guardTicks := c.guardTicks
    quota := c.quota, marker := c.marker, reportCommits := c.reportCommits, reportLates := c.reportLates }

/-- A group brought out of OFF (R43). -/
def Group.bringUp (x : Group) : Group :=
  { x with
    state := .opened, epoch := 0, overrunCount := 0, lateCount := 0, faultStep := none, faultAddr := 0
    nextInstant := none, returnState := .opened, epochInstant := 0, sealTime := 0 }

/-- The group after an accepted GROUP SET (R43). -/
def Group.afterSet (x : Group) (c : GroupConfig) : Group :=
  if x.state = .off then (x.configure c).bringUp else x.configure c

/-- An accepted GROUP SET, an occasion for a held write (R43). -/
def effectGroupSet (ps : List Byte) (s : State) : State :=
  let p := GroupParams.parse ps
  match p.number, p.config with
  | some g, some c => (s.modifyGroup g (fun x => x.afterSet c)).reconsiderHeld
  | _, _ => s

/-- GROUP SET (R42). -/
def groupSetCommand : Command := { code := 0x20, check := checkGroupSet, effect := effectGroupSet }

/-- The meaning of GROUP SET. -/
def execGroupSet (ev : FrameEvent) (s : State) : Host.Outcome State Fault Refusal :=
  frameHappening s groupSetCommand ev

/-! ## GROUP ARM (R45, R46) -/

/-- The instant parameter of GROUP ARM. -/
def armInstant (ps : List Byte) : Time := BitVec.ofNat 48 (field ps 1 6)

/-- The refusals of GROUP ARM for one group (R45, R46). -/
def checkArm (s : State) (x : Group) (instant : Time) : Option Result :=
  match x.trigger with
  | .manual => some .state
  | .oneshot | .periodic =>
    if s.mode ≠ .active ∨ x.state ≠ .opened then some .state
    else if isLater s.time instant then none else some .param
  | .cycle =>
    if s.mode ≠ .active ∨ x.state ≠ .opened then some .state
    else if s.timebase.cycleLength ≤ x.cycleOffset.toNat ∨ x.cycleOffset.toNat < x.guardTicks.toNat then some .param
    else none

/-- The refusals of GROUP ARM. -/
def checkGroupArm (ps : List Byte) (s : State) : Option Result :=
  checkGroup ps (fun g => checkArm s (s.group g) (armInstant ps))

/-- The group armed for an instant; it seals at once when the seal point is already reached (R45). -/
def State.armTimed (s : State) (g : GroupNum) (instant : Time) : State :=
  let s1 := s.modifyGroup g (fun x => { x with nextInstant := some instant, state := .armed })
  if distance s.time instant ≤ (s.group g).guardTicks.toNat then s1.sealGroup g else s1

/-- The group armed for a cycle position (R46). -/
def State.armCycle (s : State) (g : GroupNum) : State :=
  s.modifyGroup g (fun x => { x with nextInstant := none, state := .armed })

/-- An accepted GROUP ARM of one group (R45, R46). -/
def State.arm (s : State) (g : GroupNum) (instant : Time) : State :=
  match (s.group g).trigger with
  | .manual => s
  | .oneshot | .periodic => s.armTimed g instant
  | .cycle => s.armCycle g

/-- An accepted GROUP ARM. -/
def effectGroupArm (ps : List Byte) (s : State) : State := onGroup ps s (fun g => s.arm g (armInstant ps))

/-- GROUP ARM (R45). -/
def groupArmCommand : Command := { code := 0x21, check := checkGroupArm, effect := effectGroupArm }

/-- The meaning of GROUP ARM. -/
def execGroupArm (ev : FrameEvent) (s : State) : Host.Outcome State Fault Refusal :=
  frameHappening s groupArmCommand ev

/-! ## GROUP DISARM (R47) -/

/-- The refusals of GROUP DISARM. -/
def checkGroupDisarm (ps : List Byte) (s : State) : Option Result :=
  checkGroup ps (fun g =>
    match (s.group g).state with
    | .armed | .opened => none
    | .off | .sealed | .queued | .draining | .stalled => some .state)

/-- An accepted GROUP DISARM: an ARMED group becomes OPEN. -/
def effectGroupDisarm (ps : List Byte) (s : State) : State :=
  onGroup ps s (fun g =>
    if (s.group g).state = .armed then s.modifyGroup g (fun x => { x with state := .opened, nextInstant := none })
    else s)

/-- GROUP DISARM (R47). -/
def groupDisarmCommand : Command := { code := 0x22, check := checkGroupDisarm, effect := effectGroupDisarm }

/-- The meaning of GROUP DISARM. -/
def execGroupDisarm (ev : FrameEvent) (s : State) : Host.Outcome State Fault Refusal :=
  frameHappening s groupDisarmCommand ev

/-! ## GROUP COMMIT NOW (R48) -/

/-- The group is OPEN or ARMED. -/
def GroupState.openOrArmed : GroupState → Bool
  | .opened | .armed => true
  | .off | .sealed | .queued | .draining | .stalled => false

/-- The refusals of GROUP COMMIT NOW. -/
def checkGroupCommitNow (ps : List Byte) (s : State) : Option Result :=
  checkGroup ps (fun g =>
    if s.mode ≠ .active then some .state
    else if (s.group g).state.openOrArmed then none else some .state)

/-- The group committed at once (R48). -/
def Group.commitNow (x : Group) (t : Time) : Group :=
  { x.sealLists with
    sealTime := t, epochInstant := t
    returnState := if x.state = .armed then .armed else .opened
    state := .queued }

/-- An accepted GROUP COMMIT NOW. -/
def effectGroupCommitNow (ps : List Byte) (s : State) : State :=
  onGroup ps s (fun g => (s.modifyGroup g (fun x => x.commitNow s.time)).enqueue g)

/-- GROUP COMMIT NOW (R48). -/
def groupCommitNowCommand : Command :=
  { code := 0x23, check := checkGroupCommitNow, effect := effectGroupCommitNow }

/-- The meaning of GROUP COMMIT NOW. -/
def execGroupCommitNow (ev : FrameEvent) (s : State) : Host.Outcome State Fault Refusal :=
  frameHappening s groupCommitNowCommand ev

/-! ## GROUP DISCARD (R50) -/

/-- The refusals of GROUP DISCARD. -/
def checkGroupDiscard (ps : List Byte) (s : State) : Option Result :=
  checkGroup ps (fun g => if (s.group g).state = .off then some .state else none)

/-- An accepted GROUP DISCARD releases every entry the filling list holds at the command (R9). -/
def effectGroupDiscard (ps : List Byte) (s : State) : State :=
  onGroup ps s (fun g => s.releaseFillings g (s.group g).filling.length)

/-- GROUP DISCARD (R50). -/
def groupDiscardCommand : Command := { code := 0x24, check := checkGroupDiscard, effect := effectGroupDiscard }

/-- The meaning of GROUP DISCARD. -/
def execGroupDiscard (ev : FrameEvent) (s : State) : Host.Outcome State Fault Refusal :=
  frameHappening s groupDiscardCommand ev

/-! ## GROUP OFF (R52) -/

/-- The refusals of GROUP OFF. -/
def checkGroupOff (ps : List Byte) (s : State) : Option Result :=
  checkGroup ps (fun g =>
    let x := s.group g
    if x.state.openOrArmed && x.filling.isEmpty && x.outgoing.isEmpty then none else some .state)

/-- The group becomes OFF, and a write held for it passes to memory (R22, R52). -/
def State.turnOff (s : State) (g : GroupNum) : State :=
  let s1 := s.modifyGroup g (fun x => { x with state := .off, nextInstant := none })
  if s.port.heldFor g then s1.passHeld else s1

/-- An accepted GROUP OFF. -/
def effectGroupOff (ps : List Byte) (s : State) : State := onGroup ps s (fun g => s.turnOff g)

/-- GROUP OFF (R52). -/
def groupOffCommand : Command := { code := 0x25, check := checkGroupOff, effect := effectGroupOff }

/-- The meaning of GROUP OFF. -/
def execGroupOff (ev : FrameEvent) (s : State) : Host.Outcome State Fault Refusal :=
  frameHappening s groupOffCommand ev

/-! ## GROUP READ (R53) -/

/-- The refusal of GROUP READ. -/
def checkGroupRead (ps : List Byte) (_ : State) : Option Result := checkGroup ps (fun _ => none)

/-- GROUP READ (R53). -/
def groupReadCommand : Command := { code := 0x26, check := checkGroupRead, effect := fun _ s => s }

/-- The meaning of GROUP READ. -/
def execGroupRead (ev : FrameEvent) (s : State) : Host.Outcome State Fault Refusal :=
  frameHappening s groupReadCommand ev

/-! ## GROUP RETRY and GROUP ABANDON (R66 to R68) -/

/-- The refusals of GROUP RETRY and GROUP ABANDON: PARAM, then STATE for a group that is not STALLED. -/
def checkStalled (ps : List Byte) (s : State) : Option Result :=
  checkGroup ps (fun g => if (s.group g).state = .stalled then none else some .state)

/-- An accepted GROUP RETRY. -/
def effectGroupRetry (ps : List Byte) (s : State) : State := onGroup ps s (fun g => s.requeue g)

/-- GROUP RETRY (R66). -/
def groupRetryCommand : Command := { code := 0x27, check := checkStalled, effect := effectGroupRetry }

/-- The meaning of GROUP RETRY. -/
def execGroupRetry (ev : FrameEvent) (s : State) : Host.Outcome State Fault Refusal :=
  frameHappening s groupRetryCommand ev

/-- An accepted GROUP ABANDON. -/
def effectGroupAbandon (ps : List Byte) (s : State) : State := onGroup ps s (fun g => s.abandonGroup g)

/-- GROUP ABANDON (R67). -/
def groupAbandonCommand : Command := { code := 0x28, check := checkStalled, effect := effectGroupAbandon }

/-- The meaning of GROUP ABANDON. -/
def execGroupAbandon (ev : FrameEvent) (s : State) : Host.Outcome State Fault Refusal :=
  frameHappening s groupAbandonCommand ev

end Sys2Proof.Machine
end

