-- ==== Sys2Proof/Machine/InitiatorPort.lean ====
section
/-! DEFINITION. The initiator port: the take, classification and dispositions (R101 to R111), the access watch (R132 to
R138), and memory's answer to an initiator-path transaction (R123, R26, R135). -/

namespace Sys2Proof.Machine

/-! ## The transaction on the bus -/

/-- The transaction as the pins carry it: a word address of 30 bits, and all four lanes on a read (0.6.3, TABLE 11(h)). -/
def onBus (t : Transaction) : Transaction :=
  { t with
    addr := t.addr &&& 0xFFFFFFFC#32
    lanes := match t.dir with
      | .read => Lanes.all
      | .write => t.lanes }

/-! ## Dispositions -/

/-- The transaction passes: it is requested unchanged and the port is PASSING (R103). -/
def State.passWith (s : State) (t : Transaction) (d : Disposition) (w : Option WindowNum) : State :=
  (s.setPort (.passing { tx := t, takeTime := s.time, disposition := d, window := w })).request .initiator (requestOf t)

/-- A write becomes the held write, its hold count at 0 (R17, R106, R111). -/
def State.hold (s : State) (t : Transaction) (w : WindowNum) (g : GroupNum) (reason : HoldReason) : State :=
  s.setPort (.held { tx := t, takeTime := s.time, disposition := .hold, window := some w } g reason 0)

/-- A write presented for placement (R105 to R107, R10 to R13). -/
def State.present (s : State) (t : Transaction) (i : WindowNum) : State :=
  let w := s.windows.get i
  let g := w.group
  if (findEntry (s.group g).filling t.addr).isSome then (s.placeMerge g t).answer .okWrite
  else if s.hasRoom g then (s.placeNew g t).answer .okWrite
  else
    match w.fullPolicy with
    | .wait => s.hold t i g .room
    | .refuse => s.refuseWrite g (s.fullCause g) t

/-- The bytes a watch context captures of a write (TABLE 7(a)). -/
def captured (t : Transaction) : Word := overlay 0 t.data t.lanes

/-- The watch context opened at a take (R132, R134). -/
def State.openWatch (s : State) (t : Transaction) (i : WindowNum) : State :=
  let capture := (s.windows.get i).watchData
  { s with watch := some {
      window := i, takeTime := s.time, addr := t.addr, dir := t.dir, lanes := t.lanes, capture := capture
      writeData := if capture && t.dir == .write then captured t else 0
      grantsAhead := if s.arbiter.outstanding.isSome then 1 else 0 } }

/-- The window's watch on selects this direction (R109, R133). -/
def WatchOn.selects : WatchOn → Direction → Bool
  | .writes, .write => true
  | .writes, .read => false
  | .reads, .read => true
  | .reads, .write => false
  | .both, _ => true

/-- A read of a STAGE window of a non-OFF group (R108). -/
def State.readStaged (s : State) (t : Transaction) (i : WindowNum) : State :=
  let w := s.windows.get i
  match w.readView with
  | .memory => s.passWith t .pass (some i)
  | .staged =>
    if (s.group w.group).allStaged t.addr then
      s.answer (.okRead ((s.group w.group).overlayWord t.addr 0))
    else s.passWith t (.overlay w.group) (some i)

/-- A write to a STAGE window of a non-OFF group (R102 lines 7 to 9). -/
def State.writeStaged (s : State) (t : Transaction) (i : WindowNum) : State :=
  if t.lanes = 0 then s.answer .okWrite
  else
    match s.mode with
    | .active => s.present t i
    | .quiescing => s.hold t i (s.windows.get i).group .mode
    | .bypass | .resetting => s

/-- An access that matches window `i`, in ACTIVE or QUIESCING (R102 lines 4 to 9). -/
def State.disposeIn (s : State) (t : Transaction) (i : WindowNum) : State :=
  let w := s.windows.get i
  match w.kind with
  | .watch =>
    if s.mode == .active && w.watchOn.selects t.dir then (s.openWatch t i).passWith t .watch (some i)
    else s.passWith t .pass (some i)
  | .stage =>
    if (s.group w.group).state = .off then s.passWith t .pass (some i)
    else
      match t.dir with
      | .read => s.readStaged t i
      | .write => s.writeStaged t i

/-- The transaction is a write to the tail word of an enabled ring (R102 line 1). -/
def State.isTailWrite (s : State) (t : Transaction) : Bool :=
  s.records.enabled && t.dir == .write && t.addr == s.records.tailAddr

/-- The transaction classified and disposed of (R102). The port holds no matched window for a transaction that passes in BYPASS,
at an address inside an enabled window too (DESIGN CHOICE, assumption 32), nor for a tail write, whose address no enabled
window contains (R95). -/
def State.classify (s : State) (t : Transaction) : State :=
  if s.isTailWrite t then (s.tailSnoop t).passWith t .tailSnoop none
  else if s.mode = .bypass then s.passWith t .pass none
  else
    match s.matchWindow t.addr with
    | none => s.passWith t .pass none
    | some i => s.disposeIn t i

/-- A presented transaction is taken (R101). -/
def State.canTakeUpstream (s : State) : Bool := s.port == .free && s.mode != .resetting

/-- The take of a presented transaction; where it is not taken the initiator sees a wait (R101). -/
def State.takeUpstream (s : State) (t : Transaction) : State :=
  if s.canTakeUpstream then ({ s with reply := none }).classify (onBus t) else s

/-- The meaning of UPSTREAM_TRANSACTION_TAKE. -/
def execUpstreamTransactionTake (t : Transaction) (s : State) : Host.Outcome State Fault Refusal :=
  happening s (fun a => a.takeUpstream t)

/-! ## Memory's answer (R123) -/

/-- Memory's answer returned unchanged (R103, R116). -/
def plainReply (t : Transaction) (ok : Bool) (data : Word) : Reply :=
  if !ok then .error
  else
    match t.dir with
    | .read => .okRead data
    | .write => .okWrite

/-- The data of a WATCH record (R137). -/
def WatchContext.recordData (w : WatchContext) (ok : Bool) (data : Word) : Word :=
  if !w.capture then 0
  else
    match w.dir with
    | .write => w.writeData
    | .read => if ok then data else 0

/-- The WATCH record of a context and its response (R136). -/
def WatchContext.record (w : WatchContext) (now : Time) (ok : Bool) (data : Word) : RecordBody :=
  .watch w.window w.takeTime w.addr w.dir w.lanes (w.recordData ok data) (!ok) now w.grantsAhead

/-- The watch context closes with its record (R135). -/
def State.closeWatch (s : State) (ok : Bool) (data : Word) : State :=
  match s.watch with
  | none => s
  | some w => { (s.handOver (w.record s.time ok data)) with watch := none }

/-- The reply to a taken transaction at memory's response: staged lanes are laid over the data of an overlay read
(R26). -/
def State.replyTo (s : State) (t : Taken) (ok : Bool) (data : Word) : Reply :=
  match t.disposition with
  | .overlay g => if ok then .okRead ((s.group g).overlayWord t.tx.addr data) else .error
  | .pass | .tailSnoop | .watch | .hold => plainReply t.tx ok data

/-- Memory's response to the initiator path's transaction (R123). -/
def State.initiatorAnswered (s : State) (t : Taken) (ok : Bool) (data : Word) : State :=
  let s1 := s.endTransaction.answer (s.replyTo t ok data)
  if t.disposition = .watch then s1.closeWatch ok data else s1

/-- The response, where the outstanding transaction is the initiator path's (R131 note 2). -/
def State.initiatorResponse (s : State) (ok : Bool) (data : Word) : State :=
  match s.arbiter.owner, s.port with
  | some .initiator, .passing t => s.initiatorAnswered t ok data
  | _, _ => s

/-- The meaning of INITIATOR_RESPONSE. -/
def execInitiatorResponse (ok : Bool) (data : Word) (s : State) : Host.Outcome State Fault Refusal :=
  happening s (fun a => a.initiatorResponse ok data)

end Sys2Proof.Machine
end

