-- ==== Sys2Proof/Machine/ModeCommands.lean ====
section
/-! DEFINITION. MODE SET (R164 to R167) and SOFT RESET (R173). -/

namespace Sys2Proof.Machine

/-- The mode code MODE SET accepts (R164, TABLE 11(c)): true for ACTIVE, false for BYPASS. -/
def wantsActive (ps : List Byte) : Option Bool :=
  match field ps 0 1 with
  | 0 => some false
  | 1 => some true
  | _ => none

/-- The refusals of MODE SET (R164). -/
def checkModeSet (ps : List Byte) (s : State) : Option Result :=
  match wantsActive ps with
  | none => some .param
  | some active => if active && s.mode == .quiescing then some .state else none

/-- The group is OFF, OPEN or ARMED (R164). -/
def Group.notBeyondArmed (x : Group) : Bool :=
  match x.state with
  | .off | .opened | .armed => true
  | .sealed | .queued | .draining | .stalled => false

/-- MODE SET BYPASS in ACTIVE goes to BYPASS at once (R164). -/
def State.bypassAtOnce (s : State) : Bool :=
  s.storeEmpty && s.groups.toList.all Group.notBeyondArmed

/-- Every ARMED group becomes OPEN (R165). -/
def State.disarmAll (s : State) : State :=
  { s with groups := s.groups.map (fun x => if x.state = .armed then x.disarmed else x) }

/-- The hold reason of a held write becomes MODE (R22, R167). -/
def Port.holdForMode : Port → Port
  | .held t g _ n => .held t g .mode n
  | .free => .free
  | .passing t => .passing t

/-- QUIESCING begins: the mode, the held write's reason, and the first flush step; the take follows at once (R167). -/
def State.beginFlush (s : State) : State :=
  ((s.setMode .quiescing).setPort s.port.holdForMode).forGroups State.flushGroup

/-- An accepted MODE SET (R164 to R167). -/
def effectModeSet (ps : List Byte) (s : State) : State :=
  match wantsActive ps, s.mode with
  | some true, .bypass => s.setMode .active
  | some false, .active => if s.bypassAtOnce then (s.setMode .bypass).disarmAll else s.beginFlush
  | _, _ => s

/-- MODE SET (R164). -/
def modeSetCommand : Command := { code := 0x04, check := checkModeSet, effect := effectModeSet }

/-- The meaning of MODE SET. -/
def execModeSet (ev : FrameEvent) (s : State) : Host.Outcome State Fault Refusal :=
  frameHappening s modeSetCommand ev

/-- A held write at the SOFT RESET command is answered ERROR, with a REFUSED record of cause RESET (R23). -/
def State.resetHeld (s : State) : State :=
  match s.port with
  | .held t g _ _ => s.refuseWrite g .reset t.tx
  | .free | .passing _ => s

/-- An ungranted transaction of the initiator path is withdrawn and stays taken; its watch context closes at the command (R113,
R141). DESIGN CHOICE (log entry 32): its overlay disposition and its held window are dropped here too, at the SOFT RESET
command, while R113 names their drop with the request made again after the soft reset. -/
def State.withdrawInitiator (s : State) : State :=
  match s.port, s.arbiter.initiatorPlace with
  | .passing t, some _ =>
    { (s.withdraw .initiator) with port := .passing { t with disposition := .pass, window := none }, watch := none }
  | _, _ => s

/-- A requested step of the drain engine is withdrawn (R71). -/
def State.withdrawDrain (s : State) : State := s.withdraw .drain

/-- A request of the ring writer not yet granted is withdrawn, and the writer stays without one (R153). -/
def State.withdrawRecord (s : State) : State :=
  match s.arbiter.recordPlace with
  | none => s
  | some _ => (s.withdraw .record).writerIdle

/-- The blocks at the SOFT RESET command (R173). -/
def effectSoftReset (_ : List Byte) (s : State) : State :=
  ((((s.setMode .resetting).resetHeld).withdrawInitiator).withdrawDrain).withdrawRecord

/-- SOFT RESET (R173): where the memory port is idle, its completion follows in the same happening (R174). -/
def softResetCommand : Command := { code := 0x05, check := fun _ _ => none, effect := effectSoftReset }

/-- The meaning of SOFT RESET. -/
def execSoftReset (ev : FrameEvent) (s : State) : Host.Outcome State Fault Refusal :=
  frameHappening s softResetCommand ev

end Sys2Proof.Machine
end

