-- ==== Sys2Proof/Machine/PortEvents.lean ====
section
/-! DEFINITION. What the blocks do at once on each other's happenings, as rows of their own (GRANT, DRAIN_TAKE, RECORD_BEGIN,
HELD_WRITE_PLACEMENT, FLUSH_COMPLETE, SOFT_RESET_COMPLETION), and memory's answers to the drain engine and the ring writer
(R123). A row whose conditions do not hold is no happening and changes nothing (assumption 11). -/

namespace Sys2Proof.Machine

/-! ## The internal rows -/

/-- The meaning of GRANT: the IDLE arbiter grants the highest waiting request (R121). -/
def execGrant (s : State) : Host.Outcome State Fault Refusal :=
  happening s (fun a => if a.canGrant then a.grantHighest else a)

/-- The meaning of DRAIN_TAKE: the IDLE engine takes the head of the commit queue (R58). -/
def execDrainTake (s : State) : Host.Outcome State Fault Refusal := happening s State.takeNext

/-- The meaning of RECORD_BEGIN: the IDLE writer begins the record at the head of the queue (R149). -/
def execRecordBegin (s : State) : Host.Outcome State Fault Refusal := happening s State.settleWriter

/-- The meaning of HELD_WRITE_PLACEMENT: the write held with reason ROOM is placed (R20). -/
def execHeldWritePlacement (s : State) : Host.Outcome State Fault Refusal := happening s State.reconsiderHeld

/-- The meaning of FLUSH_COMPLETE: the mode becomes BYPASS (R171). -/
def execFlushComplete (s : State) : Host.Outcome State Fault Refusal := happening s State.settleFlush

/-- The meaning of SOFT_RESET_COMPLETION: every block takes its soft-reset values (R174). -/
def execSoftResetCompletion (s : State) : Host.Outcome State Fault Refusal := happening s State.settleSoftReset

/-! ## Memory's answers -/

/-- Memory's response to a drain step (R60, R63, R65, R71). -/
def State.drainResponse (s : State) (ok : Bool) : State :=
  match s.arbiter.outstanding, s.engine with
  | some (.drain, q), some c => s.endTransaction.stepResponse c q.addr ok
  | _, _ => s

/-- The meaning of DRAIN_STEP_RESPONSE. -/
def execDrainStepResponse (ok : Bool) (s : State) : Host.Outcome State Fault Refusal :=
  happening s (fun a => a.drainResponse ok)

/-- Memory's response to a record word (R150, R152, R148). -/
def State.recordResponse (s : State) (ok : Bool) : State :=
  match s.arbiter.owner, s.records.writer with
  | some .record, some (.record k slot seq, _) => s.endTransaction.recordWordResponse k slot seq ok
  | some .record, some (.disowned false again, _) => s.endTransaction.disownedResponse again
  | _, _ => s

/-- The meaning of RECORD_WORD_RESPONSE. -/
def execRecordWordResponse (ok : Bool) (s : State) : Host.Outcome State Fault Refusal :=
  happening s (fun a => a.recordResponse ok)

/-- Memory's response to a head word (R151, R148). -/
def State.headWordAnswered (s : State) (ok : Bool) : State :=
  match s.arbiter.owner, s.records.writer with
  | some .record, some (.initialHead, _) => s.endTransaction.initialHeadResponse ok
  | some .record, some (.head _ _ slot urgent, _) => s.endTransaction.headResponse slot urgent ok
  | some .record, some (.disowned true again, _) => s.endTransaction.disownedResponse again
  | _, _ => s

/-- The meaning of HEAD_WORD_RESPONSE. -/
def execHeadWordResponse (ok : Bool) (s : State) : Host.Outcome State Fault Refusal :=
  happening s (fun a => a.headWordAnswered ok)

end Sys2Proof.Machine
end

