-- ==== Sys2Proof/Machine/Resets.lean ====
section
/-! DEFINITION. Hardware reset, the rise of RESET, and power-on (R176, R177). -/

namespace Sys2Proof.Machine

/-- Every block at its HARDWARE RESET values, which equal its POWER-ON values (R177), with the status flags given; the
levels of the input lines, the queue of commands and the model's own counter are no state of a block. -/
def State.blocksReset (s : State) (run : RunState) (flags : StatusFlags) : State :=
  { State.reset with
    run := run
    timebase := { Timebase.initial with freezeLine := s.timebase.freezeLine, syncLine := s.timebase.syncLine }
    link := { Link.initial with selectLow := s.link.selectLow, flags := flags }
    choices := s.choices, pending := s.pending }

/-- RESET falls: HRST set, PWR clear (R176); before the device has left its power-on values it is part of power-on
(R177). -/
def State.resetFall (s : State) : State :=
  match s.run with
  | .running => s.blocksReset .resetLow { StatusFlags.clear with hrst := true }
  | .resetLow | .powerOnHold => s

/-- The meaning of HARDWARE_RESET. -/
def execHardwareReset (s : State) : Host.Outcome State Fault Refusal := .next s.resetFall

/-- The meaning of RESET_RISE: the device runs (R176, R177). -/
def execResetRise (s : State) : Host.Outcome State Fault Refusal := .next { s with run := .running }

/-- Power-on: every block at its POWER-ON values, PWR set (R177). -/
def State.powerUp (s : State) (runs : Bool) : State :=
  s.blocksReset (if runs then .running else .powerOnHold) { StatusFlags.clear with pwr := true }

/-- The meaning of POWER_ON. -/
def execPowerOn (runs : Bool) (s : State) : Host.Outcome State Fault Refusal := .next (s.powerUp runs)

end Sys2Proof.Machine
end

