-- ==== Sys2Proof/Machine/RingCommands.lean ====
section
/-! DEFINITION. RING SET (R145 to R148) and RING READ (R161). -/

namespace Sys2Proof.Machine

/-- The capacities a ring may have (TABLE 8(a)). -/
def ringCapacities : List Nat := [16, 32, 64, 128, 256, 512, 1024, 2048, 4096]

/-- A byte address lies inside the ring area of the parameters. -/
def RingParams.inArea (p : RingParams) (a : Nat) : Bool :=
  decide (p.base ≤ a ∧ a < p.base + ringBytes p.capacity)

/-- The PARAM refusals of R145 step 2. -/
def RingParams.badValues (p : RingParams) : Bool :=
  p.base % 32 != 0 || !ringCapacities.contains p.capacity || decide (2 ^ 32 < p.base + ringBytes p.capacity) ||
    p.headAddr % 4 != 0 || p.tailAddr % 4 != 0 || p.headAddr == p.tailAddr ||
    p.inArea p.headAddr || p.inArea p.tailAddr || decide (p.capacity ≤ p.threshold)

/-- A range of the new ring meets an enabled window (R145 step 3). -/
def State.windowMeets (s : State) (base size : Nat) : Bool :=
  s.windows.toList.any (fun w => w.enabled && rangesMeet base size w.base.toNat w.size.toNat)

/-- The marker of a group that is not OFF is a word of the new ring (R145 step 3). -/
def RingParams.holdsMarker (p : RingParams) (x : Group) : Bool :=
  x.state != .off &&
    x.marker.any (fun m => p.inArea m.toNat || m.toNat == p.headAddr || m.toNat == p.tailAddr)

/-- The conflicts of R145 step 3. -/
def State.ringConflict (s : State) (p : RingParams) : Bool :=
  s.windowMeets p.base (ringBytes p.capacity) || s.windowMeets p.headAddr 4 || s.windowMeets p.tailAddr 4 ||
    s.groups.toList.any p.holdsMarker

/-- The refusals of RING SET (R145). -/
def checkRingSet (ps : List Byte) (s : State) : Option Result :=
  let p := RingParams.parse ps
  match p.enable with
  | none => some .param
  | some false => none
  | some true =>
    if s.records.enabled then some .state
    else if p.badValues then some .param
    else if s.ringConflict p then some .conflict
    else none

/-- The record unit with the parameters of an accepted RING SET with enable yes (R146). -/
def RecordUnit.enable (r : RecordUnit) (p : RingParams) : RecordUnit :=
  { r with
    enabled := true, base := BitVec.ofNat 32 p.base, capacity := p.capacity, headAddr := BitVec.ofNat 32 p.headAddr
    tailAddr := BitVec.ofNat 32 p.tailAddr, threshold := p.threshold, urgencyMask := p.urgencyMask
    producer := 0, consumer := 0, generation := 0, urgentMark := none }

/-- The ring enabled: the initial head word is requested, or waits for the response to a word of a ring disabled
earlier (R146). -/
def State.enableRing (s : State) (p : RingParams) : State :=
  let r := s.records.enable p
  match r.writer with
  | some (.disowned isHead _, st) => s.setRecords { r with writer := some (.disowned isHead true, st) }
  | _ => (s.setRecords r).requestInitialHead

/-- The record unit disabled (R148). -/
def RecordUnit.disable (r : RecordUnit) : RecordUnit :=
  { r with enabled := false, queue := [], lostCount := 0, urgentMark := none }

/-- The task is a head word. -/
def WriterTask.isHead : WriterTask → Bool
  | .initialHead => true
  | .head .. => true
  | .record .. => false
  | .disowned h _ => h

/-- The ring disabled: a request is withdrawn, an outstanding word completes without effect (R148). -/
def State.disableRing (s : State) : State :=
  let r := s.records.disable
  match r.writer with
  | none => s.setRecords r
  | some (_, .requested) => (s.setRecords { r with writer := none }).withdraw .record
  | some (t, .outstanding) => s.setRecords { r with writer := some (.disowned t.isHead false, .outstanding) }

/-- An accepted RING SET (R146, R148). -/
def effectRingSet (ps : List Byte) (s : State) : State :=
  let p := RingParams.parse ps
  if p.enable = some true then s.enableRing p else s.disableRing

/-- RING SET (R145). -/
def ringSetCommand : Command := { code := 0x30, check := checkRingSet, effect := effectRingSet }

/-- The meaning of RING SET. -/
def execRingSet (ev : FrameEvent) (s : State) : Host.Outcome State Fault Refusal :=
  frameHappening s ringSetCommand ev

/-- RING READ (R161). -/
def ringReadCommand : Command := { code := 0x31, check := fun _ _ => none, effect := fun _ s => s }

/-- The meaning of RING READ. -/
def execRingRead (ev : FrameEvent) (s : State) : Host.Outcome State Fault Refusal :=
  frameHappening s ringReadCommand ev

end Sys2Proof.Machine
end

