-- ==== Sys2Proof/Machine/StatusCommands.lean ====
section
/-! DEFINITION. The commands of the status block and of the link itself: IDENTIFY, STATUS READ, STATUS CLEAR, a frame of an
undefined code, a frame of a bad bit count (Section 10). -/

namespace Sys2Proof.Machine

/-- A read command: it changes no state of any block (R182). -/
def readCommand (code : Byte) (check : List Byte → State → Option Result) : Command :=
  { code := code, check := check, effect := fun _ s => s }

/-- IDENTIFY (R193). -/
def identifyCommand : Command := readCommand 0x01 (fun _ _ => none)

/-- The meaning of IDENTIFY. -/
def execIdentify (ev : FrameEvent) (s : State) : Host.Outcome State Fault Refusal :=
  frameHappening s identifyCommand ev

/-- STATUS READ (R190). -/
def statusReadCommand : Command := readCommand 0x02 (fun _ _ => none)

/-- The meaning of STATUS READ. -/
def execStatusRead (ev : FrameEvent) (s : State) : Host.Outcome State Fault Refusal :=
  frameHappening s statusReadCommand ev

/-- The flag mask of a STATUS CLEAR. -/
def clearMaskOf (ps : List Byte) : Byte := BitVec.ofNat 8 (field ps 0 1)

/-- The refusals of STATUS CLEAR (R191). -/
def checkStatusClear (ps : List Byte) (s : State) : Option Result :=
  if (clearMaskOf ps).getLsbD 7 then some .param
  else if field ps 1 1 ≠ s.link.changeCount.toNat then some .stale
  else none

/-- An accepted STATUS CLEAR clears every flag named in the mask (R191). -/
def effectStatusClear (ps : List Byte) (s : State) : State :=
  s.setLink { s.link with flags := s.link.flags.clearMask (clearMaskOf ps) }

/-- STATUS CLEAR (R191). -/
def statusClearCommand : Command := { code := 0x03, check := checkStatusClear, effect := effectStatusClear }

/-- The meaning of STATUS CLEAR. -/
def execStatusClear (ev : FrameEvent) (s : State) : Host.Outcome State Fault Refusal :=
  frameHappening s statusClearCommand ev

/-- A frame of the undefined code `code`: its result is UNKNOWN at step 4 of R183, unless an earlier step refuses it. -/
def unknownCommandOf (code : Byte) : Command :=
  { code := code, check := fun _ _ => some .unknown, effect := fun _ s => s }

/-- The meaning of a frame of an undefined code; a code that is defined is no such frame (assumption 11). -/
def execUnknownCommand (code : Byte) (ev : FrameEvent) (s : State) : Host.Outcome State Fault Refusal :=
  if (commandForm code).isSome then .next s else frameHappening s (unknownCommandOf code) ev

/-- Select rises at the end of a frame of a bad bit count (R183 steps 2 and 3). -/
def State.riseBad (s : State) : State :=
  if s.link.shifter.phase = .idle then s.selectRise
  else
    match s.link.shifter.judge with
    | some r => s.selectRise.refuseFrame r
    | none => s.selectRise

/-- A whole frame of the bits `bits`. -/
def badFrame (bits : List Bool) (s : State) : State :=
  if s.link.selectLow then s else ((s.selectFall).clockBits bits).riseBad

/-- The meaning of a frame of a bad bit count; a bit count that is a multiple of 8 is no such frame (assumption 11). -/
def execFrameError (bits : List Bool) (s : State) : Host.Outcome State Fault Refusal :=
  if bits.length % 8 = 0 then .next s
  else .next (if s.runs then s.settle (badFrame bits s) else s)

end Sys2Proof.Machine
end

