-- ==== Sys2Proof/Machine/TimebaseCommands.lean ====
section
/-! DEFINITION. TICK SET (R76), TIME SET (R81, R82, R38), TIME READ (R85) and CYCLE SET (R91, R92). -/

namespace Sys2Proof.Machine

/-- The refusal of TICK SET (R76). -/
def checkTickSet (ps : List Byte) (_ : State) : Option Result :=
  if (TickParams.parse ps).freezeEnable.isNone then some .param else none

/-- An accepted TICK SET: the divisor, the divider restarted, the freeze enable and the hold limit (R76). -/
def effectTickSet (ps : List Byte) (s : State) : State :=
  let p := TickParams.parse ps
  s.setTimebase { s.timebase with
    divisor := divisorOf p.divisorField, count := 0
    freezeEnable := p.freezeEnable.getD s.timebase.freezeEnable, holdLimit := p.holdLimit }

/-- TICK SET (R76). -/
def tickSetCommand : Command := { code := 0x08, check := checkTickSet, effect := effectTickSet }

/-- The meaning of TICK SET. -/
def execTickSet (ev : FrameEvent) (s : State) : Host.Outcome State Fault Refusal :=
  frameHappening s tickSetCommand ev

/-- The refusal of TIME SET (R81). -/
def checkTimeSet (_ : List Byte) (s : State) : Option Result :=
  if s.timebase.frozen then some .state else none

/-- The move from `t0` to `t1` is forward (R82). -/
def forwardMove (t0 t1 : Time) : Bool := isLater t0 t1

/-- TIME becomes `t1`, and in ACTIVE a forward move reaches the points it passes over, group by group in ascending
number (R38, R82). -/
def State.moveTime (s : State) (t1 : Time) : State :=
  let t0 := s.time
  let s1 := s.setTimebase { s.timebase with time := t1 }
  if s.mode = .active ∧ forwardMove t0 t1 then s1.forGroups (State.jumpGroup t0 t1) else s1

/-- An accepted TIME SET (R82). -/
def effectTimeSet (ps : List Byte) (s : State) : State := s.moveTime (BitVec.ofNat 48 (field ps 0 6))

/-- TIME SET (R81). -/
def timeSetCommand : Command := { code := 0x09, check := checkTimeSet, effect := effectTimeSet }

/-- The meaning of TIME SET. -/
def execTimeSet (ev : FrameEvent) (s : State) : Host.Outcome State Fault Refusal :=
  frameHappening s timeSetCommand ev

/-- TIME READ (R85). -/
def timeReadCommand : Command := { code := 0x0A, check := fun _ _ => none, effect := fun _ s => s }

/-- The meaning of TIME READ. -/
def execTimeRead (ev : FrameEvent) (s : State) : Host.Outcome State Fault Refusal :=
  frameHappening s timeReadCommand ev

/-- A CYCLE group that is ARMED, SEALED or QUEUED (R91 step 2). -/
def Group.cycleInHand (x : Group) : Bool :=
  x.trigger == .cycle &&
    match x.state with
    | .armed | .sealed | .queued => true
    | .off | .opened | .draining | .stalled => false

/-- A CYCLE group, not OFF, whose offset is not below the length (R91 step 3). -/
def Group.offsetBeyond (x : Group) (length : Nat) : Bool :=
  x.trigger == .cycle && x.state != .off && decide (length ≤ x.cycleOffset.toNat)

/-- The refusals of CYCLE SET (R91). -/
def checkCycleSet (ps : List Byte) (s : State) : Option Result :=
  let p := CycleParams.parse ps
  if p.length < 2 ∨ p.edge.isNone then some .param
  else if s.groups.toList.any Group.cycleInHand then some .state
  else if s.groups.toList.any (fun x => x.offsetBeyond p.length) then some .param
  else none

/-- An accepted CYCLE SET (R92). -/
def effectCycleSet (ps : List Byte) (s : State) : State :=
  let p := CycleParams.parse ps
  s.setTimebase { s.timebase with
    cycleLength := p.length, syncSelect := p.edge.getD s.timebase.syncSelect, cyclePosition := 0, cycleNumber := 0 }

/-- CYCLE SET (R91). -/
def cycleSetCommand : Command := { code := 0x0B, check := checkCycleSet, effect := effectCycleSet }

/-- The meaning of CYCLE SET. -/
def execCycleSet (ev : FrameEvent) (s : State) : Host.Outcome State Fault Refusal :=
  frameHappening s cycleSetCommand ev

end Sys2Proof.Machine
end

