-- ==== Sys2Proof/Machine/TimebaseEvents.lean ====
section
/-! DEFINITION. The timebase's events: the tick (R75, R87) with what it reaches (R32, R18, R19), the SYNC edge (R88), the
FREEZE line (R78), and a period of CLK (R74). -/

namespace Sys2Proof.Machine

/-! ## The tick -/

/-- TIME, the cycle position and the cycle number at a tick (R75, R87); the divider count returns to 0 (R74). -/
def Timebase.tick (t : Timebase) : Timebase :=
  let wraps := t.cycleLength ≤ t.cyclePosition + 1
  { t with
    count := 0, time := t.time + 1
    cyclePosition := if wraps then 0 else t.cyclePosition + 1
    cycleNumber := if wraps then t.cycleNumber + 1 else t.cycleNumber }

/-- The hold count after one more tick (R18). -/
def Port.countHold : Port → Port
  | .held t g r n => .held t g r (n + 1)
  | .free => .free
  | .passing t => .passing t

/-- The hold count has reached or passed the hold limit (R18). -/
def Port.expired (p : Port) (limit : Nat) : Bool :=
  match p with
  | .held _ _ _ n => decide (0 < limit ∧ limit ≤ n)
  | .free | .passing _ => false

/-- The tick is handed to the initiator port: the hold count increases, and an expiry falls due (R18). -/
def State.tickPort (s : State) : State :=
  let p := s.port.countHold
  (s.setPort p).setDue { s.due with hold := p.expired s.timebase.holdLimit }

/-- A due expiry is taken up (R19). -/
def State.takeUpHold (s : State) : State :=
  if s.due.hold then (s.setDue { s.due with hold := false }).expireHeld else s

/-- What a tick does: the counts advance, the group table takes up the points reached, and then a held write may expire
(R75, R142). -/
def State.tick (s : State) : State :=
  let t := s.timebase.tick
  let moved := t.cyclePosition != s.timebase.cyclePosition
  ((((s.setTimebase t).tickPort).markPoints true moved).takeUpPoints).takeUpHold

/-- The divider completes its count, unless the timebase is frozen (R74, R79). -/
def State.tickUnlessFrozen (s : State) : State := if s.timebase.frozen then s else s.tick

/-- The meaning of TICK: the CLK periods left in the count pass, and the tick is produced. -/
def execTick (s : State) : Host.Outcome State Fault Refusal := happening s State.tickUnlessFrozen

/-- One period of CLK: the divider count advances, and a completed count is a tick (R74). -/
def State.clkPeriod (s : State) : State :=
  if s.timebase.frozen then s
  else if s.timebase.count + 1 < s.timebase.divisor then
    s.setTimebase { s.timebase with count := s.timebase.count + 1 }
  else s.tick

/-- What a step on an empty queue is: one period of CLK (assumption 3). -/
def clkStep (s : State) : Host.Outcome State Fault Refusal := happening s State.clkPeriod

/-! ## The parts of a timebase happening -/

/-- The meaning of SEAL_POINT_REACHED: where the timebase has reached the seal point of group `g`, the group table takes it
up (R33, R37), with the commit instant reached in the same event. Elsewhere no seal point is reached. -/
def execSealPointReached (g : GroupNum) (s : State) : Host.Outcome State Fault Refusal :=
  happening s (fun a => if a.mode = .active then a.takeUpSeal g else a)

/-- The meaning of COMMIT_INSTANT_REACHED: where the timebase has reached the commit instant of group `g`, the group table
takes it up (R34). Elsewhere no commit instant is reached. -/
def execCommitInstantReached (g : GroupNum) (s : State) : Host.Outcome State Fault Refusal :=
  happening s (fun a => if a.mode = .active then a.takeUpCommit g else a)

/-- The meaning of HOLD_EXPIRY: where a tick has brought the hold count to the hold limit, the held write is refused with
cause TIMEOUT (R19). Elsewhere no write expires. -/
def execHoldExpiry (s : State) : Host.Outcome State Fault Refusal := happening s State.takeUpHold

/-! ## SYNC (R88) -/

/-- The edge qualifies under the selection (R88). -/
def SyncSelect.qualifies : SyncSelect → Edge → Bool
  | .none, _ => false
  | .rise, .rise => true
  | .rise, .fall => false
  | .fall, .fall => true
  | .fall, .rise => false
  | .both, _ => true

/-- The level the SYNC line has after an edge. -/
def State.setSync (s : State) (e : Edge) : State := s.setTimebase { s.timebase with syncLine := e == .rise }

/-- A qualifying edge restarts the cycle (R88): position 0 is reached if the position was not 0 (R87). -/
def State.restartCycle (s : State) : State :=
  let t := s.timebase
  ((s.setTimebase { t with cyclePosition := 0, cycleNumber := t.cycleNumber + 1 }).markPoints false
    (t.cyclePosition != 0)).takeUpPoints

/-- An edge of the SYNC line (R79, R88). The row is taken as the edge it names whatever level the line had: a second rise or a
second fall in turn, which no line can give, may restart the cycle (DESIGN CHOICE, assumption 31). -/
def State.syncEdge (s : State) (e : Edge) : State :=
  let s1 := s.setSync e
  if s.timebase.frozen || !s.timebase.syncSelect.qualifies e then s1 else s1.restartCycle

/-- The meaning of SYNC_EDGE. -/
def execSyncEdge (e : Edge) (s : State) : Host.Outcome State Fault Refusal :=
  .next (if s.runs then s.settle (s.syncEdge e) else s.setSync e)

/-! ## FREEZE (R78) -/

/-- The level of the FREEZE line. -/
def State.setFreeze (s : State) (b : Bool) : State := s.setTimebase { s.timebase with freezeLine := b }

/-- The meaning of FREEZE_BEGIN: FREEZE is asserted; the timebase stands still while freeze enable is on (R78). -/
def execFreezeBegin (s : State) : Host.Outcome State Fault Refusal :=
  .next (if s.runs then s.settle (s.setFreeze true) else s.setFreeze true)

/-- The meaning of FREEZE_END: FREEZE is released, and the timebase resumes (R78, R79). -/
def execFreezeEnd (s : State) : Host.Outcome State Fault Refusal :=
  .next (if s.runs then s.settle (s.setFreeze false) else s.setFreeze false)

end Sys2Proof.Machine
end

