-- ==== Sys2Proof/Machine/WindowCommands.lean ====
section
/-! DEFINITION. WINDOW SET (R96 to R99) and WINDOW READ (R100). -/

namespace Sys2Proof.Machine

/-- The greatest size of a window, 64 MiB (TABLE 5(a)). -/
def windowSizeMax : Nat := 67108864

/-- The mode accepts WINDOW SET for a window of these present contents (R97). -/
def State.acceptsWindowSet (s : State) (w : Window) : Bool :=
  match s.mode with
  | .bypass => true
  | .active => !w.enabled || w.kind == .watch || (s.group w.group).state == .off
  | .quiescing | .resetting => false

/-- The range of the parameters is in order (R96 step 3). -/
def WindowParams.rangeOk (p : WindowParams) : Bool :=
  p.base % 64 == 0 && p.size != 0 && p.size % 64 == 0 && decide (p.size ≤ windowSizeMax) &&
    decide (p.base + p.size ≤ 2 ^ 32)

/-- The range of an enabled window shares a byte with `[base, base + size)`. -/
def Window.meets (w : Window) (base size : Nat) : Bool :=
  w.enabled && rangesMeet base size w.base.toNat w.size.toNat

/-- The marker of a group that is not OFF lies in the range (R98). -/
def Group.markerIn (x : Group) (base size : Nat) : Bool :=
  x.state != .off && x.marker.any (fun m => inRange m base size)

/-- The conflicts of R98 for the new range of window `i`. -/
def State.windowConflict (s : State) (i : WindowNum) (base size : Nat) : Bool :=
  allGroups.any (fun j => j != i && (s.windows.get j).meets base size) ||
    s.records.meetsRange base size ||
    s.groups.toList.any (fun x => x.markerIn base size)

/-- The refusals of WINDOW SET, in the order of R96. -/
def checkWindowSet (ps : List Byte) (s : State) : Option Result :=
  let p := WindowParams.parse ps
  match p.number with
  | none => some .param
  | some i =>
    if !s.acceptsWindowSet (s.windows.get i) then some .state
    else
      match p.window with
      | none => some .param
      | some w =>
        if !p.rangeOk then some .param
        else if w.enabled && s.windowConflict i p.base p.size then some .conflict
        else none

/-- An accepted WINDOW SET: the record takes every parameter value at once (R99). -/
def effectWindowSet (ps : List Byte) (s : State) : State :=
  let p := WindowParams.parse ps
  match p.number, p.window with
  | some i, some w => { s with windows := s.windows.set i w }
  | _, _ => s

/-- WINDOW SET (R96). -/
def windowSetCommand : Command := { code := 0x10, check := checkWindowSet, effect := effectWindowSet }

/-- The meaning of WINDOW SET. -/
def execWindowSet (ev : FrameEvent) (s : State) : Host.Outcome State Fault Refusal :=
  frameHappening s windowSetCommand ev

/-- The refusal of WINDOW READ (R100). -/
def checkWindowRead (ps : List Byte) (_ : State) : Option Result :=
  if (paramNumber ps).isNone then some .param else none

/-- WINDOW READ (R100). -/
def windowReadCommand : Command := { code := 0x11, check := checkWindowRead, effect := fun _ s => s }

/-- The meaning of WINDOW READ. -/
def execWindowRead (ev : FrameEvent) (s : State) : Host.Outcome State Fault Refusal :=
  frameHappening s windowReadCommand ev

end Sys2Proof.Machine
end

