-- ==== Sys2Proof/Machine/Dispatch.lean ====
section
/-! DEFINITION. The meaning of every command: one arm per row of spec/opcode_table.json. -/

namespace Sys2Proof.Machine

def exec (i : Instr) (s : State) : Host.Outcome State Fault Refusal :=
  match i with
  | .identify ev => Sys2Proof.Machine.execIdentify ev s
  | .statusRead ev => Sys2Proof.Machine.execStatusRead ev s
  | .statusClear ev => Sys2Proof.Machine.execStatusClear ev s
  | .modeSet ev => Sys2Proof.Machine.execModeSet ev s
  | .softReset ev => Sys2Proof.Machine.execSoftReset ev s
  | .tickSet ev => Sys2Proof.Machine.execTickSet ev s
  | .timeSet ev => Sys2Proof.Machine.execTimeSet ev s
  | .timeRead ev => Sys2Proof.Machine.execTimeRead ev s
  | .cycleSet ev => Sys2Proof.Machine.execCycleSet ev s
  | .windowSet ev => Sys2Proof.Machine.execWindowSet ev s
  | .windowRead ev => Sys2Proof.Machine.execWindowRead ev s
  | .groupSet ev => Sys2Proof.Machine.execGroupSet ev s
  | .groupArm ev => Sys2Proof.Machine.execGroupArm ev s
  | .groupDisarm ev => Sys2Proof.Machine.execGroupDisarm ev s
  | .groupCommitNow ev => Sys2Proof.Machine.execGroupCommitNow ev s
  | .groupDiscard ev => Sys2Proof.Machine.execGroupDiscard ev s
  | .groupOff ev => Sys2Proof.Machine.execGroupOff ev s
  | .groupRead ev => Sys2Proof.Machine.execGroupRead ev s
  | .groupRetry ev => Sys2Proof.Machine.execGroupRetry ev s
  | .groupAbandon ev => Sys2Proof.Machine.execGroupAbandon ev s
  | .ringSet ev => Sys2Proof.Machine.execRingSet ev s
  | .ringRead ev => Sys2Proof.Machine.execRingRead ev s
  | .unknownCommand code ev => Sys2Proof.Machine.execUnknownCommand code ev s
  | .frameError bits => Sys2Proof.Machine.execFrameError bits s
  | .upstreamTransactionTake t => Sys2Proof.Machine.execUpstreamTransactionTake t s
  | .tick => Sys2Proof.Machine.execTick s
  | .sealPointReached g => Sys2Proof.Machine.execSealPointReached g s
  | .commitInstantReached g => Sys2Proof.Machine.execCommitInstantReached g s
  | .holdExpiry => Sys2Proof.Machine.execHoldExpiry s
  | .syncEdge e => Sys2Proof.Machine.execSyncEdge e s
  | .freezeBegin => Sys2Proof.Machine.execFreezeBegin s
  | .freezeEnd => Sys2Proof.Machine.execFreezeEnd s
  | .hardwareReset => Sys2Proof.Machine.execHardwareReset s
  | .resetRise => Sys2Proof.Machine.execResetRise s
  | .powerOn runs => Sys2Proof.Machine.execPowerOn runs s
  | .grant => Sys2Proof.Machine.execGrant s
  | .drainTake => Sys2Proof.Machine.execDrainTake s
  | .recordBegin => Sys2Proof.Machine.execRecordBegin s
  | .heldWritePlacement => Sys2Proof.Machine.execHeldWritePlacement s
  | .flushComplete => Sys2Proof.Machine.execFlushComplete s
  | .softResetCompletion => Sys2Proof.Machine.execSoftResetCompletion s
  | .drainStepResponse ok => Sys2Proof.Machine.execDrainStepResponse ok s
  | .recordWordResponse ok => Sys2Proof.Machine.execRecordWordResponse ok s
  | .headWordResponse ok => Sys2Proof.Machine.execHeadWordResponse ok s
  | .initiatorResponse ok data => Sys2Proof.Machine.execInitiatorResponse ok data s

end Sys2Proof.Machine
end

