-- ==== Sys2Proof/Safety.lean ====
section
/-! DEFINITION. What a sound state of the device is, in the terms the claims use: what follows "at once" has followed, and
the laws the spec states of its lists, counts and modes hold. -/

namespace Sys2Proof.Machine

/-- Nothing that follows at once is due: no take (R58), no completion of the flush (R171) or of the soft reset (R174), no
beginning of a record (R149), no grant (R121). -/
abbrev NothingDue (s : State) : Prop :=
  s.canTake = false ∧ s.flushDone = false ∧ s.softResetDone = false ∧ s.canBeginRecord = false ∧
    (s.canGrant = true → s.arbiter.waiting = [])

/-- Nothing is due, and the IRQ line follows its condition (R159). -/
abbrev Settled (s : State) : Prop := NothingDue s ∧ s.irq = irqCondition s.records s.link.flags

/-- The device runs outside RESETTING with select high: the link takes a frame, and it is no BUSY frame (R186, R187). -/
abbrev LinkReady (s : State) : Prop := s.run = .running ∧ s.mode ≠ .resetting ∧ s.link.selectLow = false

/-- A group is in the commit queue exactly while it is QUEUED, and at most once (R55); it is DRAINING exactly while the
drain context is its own (R57). -/
abbrev QueueLaw (s : State) : Prop :=
  s.commitQueue.Nodup ∧ (∀ g, g ∈ s.commitQueue ↔ (s.group g).state = .queued) ∧
    (∀ g, (s.group g).state = .draining ↔ s.engine.map (·.group) = some g)

/-- A taken transaction waits for, or has been granted, the memory port (R101). -/
def Port.isPassing : Port → Bool
  | .passing _ => true
  | .free | .held .. => false

/-- The initiator path has a request in its place, or the outstanding transaction, only while the port is PASSING, and not both
(R101, R119). -/
abbrev PlaceLaw (s : State) : Prop :=
  (s.arbiter.initiatorPlace ≠ none ∨ s.arbiter.owner = some .initiator → s.port.isPassing = true) ∧
    (s.arbiter.owner = some .initiator → s.arbiter.initiatorPlace = none)

/-- While the mode is BYPASS, every group is OFF or OPEN with empty lists (R163). -/
abbrev BypassLaw (s : State) : Prop :=
  s.mode = .bypass →
    ∀ g, ((s.group g).state = .off ∨ (s.group g).state = .opened) ∧ (s.group g).filling = [] ∧ (s.group g).outgoing = []

/-- The pool holds 256 entries (R1). -/
abbrev PoolLaw (s : State) : Prop := s.poolUsed ≤ Config.poolSize

/-- No group's occupancy exceeds its quota (R6), a group that is OFF holds nothing (R30), and no write is held for it
(R22). -/
abbrev QuotaLaw (s : State) : Prop :=
  (∀ g, (s.group g).occupancy ≤ (s.group g).quota ∧ ((s.group g).state = .off → (s.group g).occupancy = 0)) ∧
    (∀ g, s.port.heldFor g = true → (s.group g).state ≠ .off)

/-- The record queue holds at most 16 records (R142). -/
abbrev RecordQueueLaw (s : State) : Prop := s.records.queue.length ≤ Config.recordQueueSize

/-- The divider count lies in 0 to D−1 and the cycle position in 0 to L−1 (TABLE 4(a)). -/
abbrev TimebaseLaw (s : State) : Prop :=
  s.timebase.count < s.timebase.divisor ∧ s.timebase.cyclePosition < s.timebase.cycleLength

/-- The saturating counts stay at or below 65535 (TABLE 0(d)). -/
abbrev CountLaw (s : State) : Prop :=
  (∀ g, (s.group g).overrunCount ≤ Config.countMax ∧ (s.group g).lateCount ≤ Config.countMax) ∧
    s.records.lostCount ≤ Config.countMax ∧ s.watch.all (fun w => decide (w.grantsAhead ≤ Config.countMax)) = true

/-- The ranges and words that R95 keeps apart: no two enabled windows share a byte; while the ring is enabled, no enabled
window shares a byte with the ring area, the head word or the tail word; and no enabled window, no other such group and no
enabled ring holds the marker of a group that is not OFF (R44, R98, R145). -/
abbrev AddressLaw (s : State) : Prop :=
  (∀ i j : WindowNum, i ≠ j → (s.windows.get i).enabled = true →
      (s.windows.get j).meets (s.windows.get i).base.toNat (s.windows.get i).size.toNat = false) ∧
    (∀ i : WindowNum, (s.windows.get i).enabled = true →
      s.records.meetsRange (s.windows.get i).base.toNat (s.windows.get i).size.toNat = false) ∧
    (∀ g : GroupNum, (s.group g).state ≠ .off →
      (s.group g).marker.all (fun m =>
        !(s.windows.toList.any (fun w => w.matchesAddr m)) && !s.records.holdsWord m &&
          !(allGroups.any (fun h => h != g && (s.group h).state != .off && (s.group h).marker == some m))) = true)

/-- The write held with reason ROOM has no entry in the filling list it waits for (R12, R17). -/
def State.heldWordAbsent (s : State) : Bool :=
  match s.port with
  | .held t g .room _ => (findEntry (s.group g).filling t.tx.addr).isNone
  | .held _ _ .mode _ | .free | .passing _ => true

/-- A word address appears at most once in each list of a group (R5), and a write held with reason ROOM has no entry in the
filling list it waits for. -/
abbrev ListLaw (s : State) : Prop :=
  (∀ g, ((s.group g).filling.map (·.addr)).Nodup ∧ ((s.group g).outgoing.map (·.addr)).Nodup) ∧
    s.heldWordAbsent = true

/-- Both lists of a group. -/
def Group.entries (x : Group) : List Entry := x.filling ++ x.outgoing

/-- A group's lists and progress record by its state: no outgoing entry in OFF, OPEN and ARMED (R30); no epoch begun, no
abandon pending and no fault step outside the busy states (R57, R62, R65); none of the epoch left to write behind a failed
END or a pending abandon (R60, R67); and an epoch not begun has no fault step but under a pending abandon (R67). -/
abbrev Group.epochLaw (x : Group) : Prop :=
  (x.state = .off ∨ x.state = .opened ∨ x.state = .armed → x.outgoing = []) ∧
    (x.state.busy = false → x.progress.begun = false ∧ x.progress.abandonPending = false ∧ x.faultStep = none) ∧
    (x.progress.abandonPending = true ∨ x.faultStep = some .finish → x.outgoing = []) ∧
    (x.progress.begun = false → x.progress.abandonPending = false → x.faultStep = none)

/-- Every group obeys its law, an epoch at the engine has begun (R58), and the END step is reached only with the outgoing list
written or dropped (R60, R65). -/
abbrev EpochLaw (s : State) : Prop :=
  (∀ g, (s.group g).epochLaw) ∧
    s.engine.all (fun c =>
      (s.group c.group).progress.begun &&
        ((c.step != .finish && c.kind != .abandonEnd) || (s.group c.group).outgoing.isEmpty)) = true

/-- A word address lies in an enabled STAGE window bound to group `g` (R10, R95). -/
def State.stagedFor (s : State) (g : GroupNum) (a : Addr) : Bool :=
  s.windows.toList.any (fun w => w.kind == .stage && w.group == g && w.matchesAddr a)

/-- A write is held with reason ROOM in ACTIVE alone, for want of room, and at an address staged for its group (R17, R20); with
reason MODE in QUIESCING alone (R111, R112). -/
def State.heldLawful (s : State) : Bool :=
  match s.port with
  | .held t g .room _ => s.mode == .active && !s.hasRoom g && s.stagedFor g t.tx.addr
  | .held _ _ .mode _ => s.mode == .quiescing
  | .free | .passing _ => true

/-- Every staged entry lies in an enabled STAGE window of its group (R5, R10, R97), a group in service has a quota of at least
1 (R6), and the held write is held lawfully. -/
abbrev WordLaw (s : State) : Prop :=
  (∀ g, ∀ e ∈ (s.group g).entries, s.stagedFor g e.addr = true) ∧
    (∀ g, (s.group g).state ≠ .off → 1 ≤ (s.group g).quota) ∧ s.heldLawful = true

/-- A word address appears in the lists of at most one group (R5). -/
abbrev WordsApart (s : State) : Prop :=
  ∀ g h, g ≠ h → ∀ e ∈ (s.group g).entries, ∀ f ∈ (s.group h).entries, e.addr ≠ f.addr

/-! ## What a happening reports, and what an epoch leaves -/

/-- The records `bs`, handed over one after another, are all that the record queue and the lost count take from `s` to `t`
(R142). -/
def Reports (s t : State) (bs : List RecordBody) : Prop :=
  t.records.queue = (bs.foldl RecordUnit.handOver s.records).queue ∧
    t.records.lostCount = (bs.foldl RecordUnit.handOver s.records).lostCount

/-- The seal point of a next instant `n` under a guard is at or before `now` (R40). -/
abbrev SealBehind (now n : Time) (guardTicks : BitVec 16) : Prop := (now - (n - guardTicks.setWidth 48)).toNat < 2 ^ 47

/-- The OVERRUN record of cause JUMP of group `g` at TIME `now`, for `k` instants skipped; no record for none (R38, R40). -/
def jumpReport (g : GroupNum) (now : Time) (k : Nat) : List RecordBody :=
  if k = 0 then [] else [.overrun g now .jump (min k 65535)]

/-- A group whose epoch has completed at TIME `now` in ACTIVE with its fields `y` takes its return state and becomes `z`, with
`k` instants skipped (R40). -/
def Returned (now : Time) (y z : Group) (k : Nat) : Prop :=
  let back := { y with returnState := .opened }
  let behind := fun n : Time => SealBehind now n y.guardTicks
  (y.returnState = .opened → z = { back with state := .opened, nextInstant := none } ∧ k = 0) ∧
    (y.returnState = .armed → y.trigger = .cycle ∨ y.trigger = .manual ∨ y.nextInstant = none →
      z = { back with state := .armed } ∧ k = 0) ∧
    (∀ n, y.nextInstant = some n → y.returnState = .armed → y.trigger = .oneshot ∨ y.trigger = .periodic → ¬ behind n →
      z = { back with state := .armed } ∧ k = 0) ∧
    (∀ n, y.nextInstant = some n → y.returnState = .armed → y.trigger = .oneshot → behind n →
      z = { back with state := .opened, nextInstant := none, overrunCount := min (y.overrunCount + 1) 65535 } ∧ k = 1) ∧
    (∀ n, y.nextInstant = some n → y.returnState = .armed → y.trigger = .periodic → behind n → y.period ≠ 0 →
      1 ≤ k ∧ (∀ j < k, behind (n + BitVec.ofNat 48 (j * y.period.toNat))) ∧
        ¬ behind (n + BitVec.ofNat 48 (k * y.period.toNat)) ∧
        z = { back with
          state := .armed, nextInstant := some (n + BitVec.ofNat 48 (k * y.period.toNat))
          overrunCount := min (y.overrunCount + k) 65535 })

/-- A group whose epoch has completed: the fault step and the progress record (R62 steps 3 and 4, R65). -/
def Group.epochClosed (x : Group) : Group :=
  { x with
    faultStep := none, progress := { x.progress with begun := false, entriesWritten := 0, abandonPending := false } }

/-- A group whose epoch has completed without an abandon: E increases as well (R62 step 1). -/
def Group.epochDone (x : Group) : Group := { x.epochClosed with epoch := x.epoch + 1 }

/-- The COMMIT_DONE record of group `g`, whose epoch of fields `x` completes at TIME `now` with `n` entries written; no record
without report commits (R62, R64). -/
def Group.doneReport (x : Group) (g : GroupNum) (n : Nat) (now : Time) : List RecordBody :=
  if x.reportCommits then [.commitDone g (x.epoch + 1) n x.epochInstant x.progress.startTime now] else []

/-- The records of a happening that places a write held for group `g` and completes the epoch of group `h` with `k` instants
skipped at TIME `now`: `late` of the placement, `ended` of the epoch's end, and the OVERRUN record of the return state. The
placement comes first; the group table's own records stand in ascending group number (R20, R142). -/
def inTurn (late ended : List RecordBody) (h g : GroupNum) (now : Time) (k : Nat) : List RecordBody :=
  if h < g ∧ k ≠ 0 then ended ++ jumpReport h now k ++ late else late ++ ended ++ jumpReport h now k

/-! ## What a frame leaves -/

/-- The device after a whole frame with result `r` in which data out showed the bits `shown`: select high, the shifter IDLE,
the last result, and the bits shown (R179, R180, R184). -/
def State.framedBits (s : State) (r : Result) (shown : List Bool) : State :=
  s.setLink { s.link with selectLow := false, shifter := Shifter.idle, lastResult := r, dataOut := shown }

/-- The device after a whole frame with result `r` in which it sent the bytes `sent`. -/
def State.framed (s : State) (r : Result) (sent : List Byte) : State := s.framedBits r (bitsOf sent)

/-- The device bytes of a write command's frame with `n` host bytes after the command byte: the last result, then 00H
(R181). -/
def State.writeSent (s : State) (n : Nat) : List Byte := s.link.lastResult.code :: List.replicate n 0

/-- Device byte `j` of a read command's frame with read data `d`: the last result, the filler, the read data from byte 2
on, then 00H (R181). -/
def State.readByte (s : State) (d : List Byte) (j : Nat) : Byte :=
  match j with
  | 0 => s.link.lastResult.code
  | 1 => 0
  | k + 2 => d.getD k 0

/-- The device bytes of a read command's frame with `n` host bytes after the command byte (R181). -/
def State.readSent (s : State) (d : List Byte) (n : Nat) : List Byte := (List.range (n + 1)).map (s.readByte d)

/-! ## What the host sends -/

/-- The commands of the link, each with its code (TABLE 11(b)). -/
def linkCommands : List (Byte × (FrameEvent → Instr)) :=
  [(0x01#8, .identify), (0x02#8, .statusRead), (0x03#8, .statusClear), (0x04#8, .modeSet), (0x05#8, .softReset),
   (0x08#8, .tickSet), (0x09#8, .timeSet), (0x0A#8, .timeRead), (0x0B#8, .cycleSet), (0x10#8, .windowSet),
   (0x11#8, .windowRead), (0x20#8, .groupSet), (0x21#8, .groupArm), (0x22#8, .groupDisarm), (0x23#8, .groupCommitNow),
   (0x24#8, .groupDiscard), (0x25#8, .groupOff), (0x26#8, .groupRead), (0x27#8, .groupRetry), (0x28#8, .groupAbandon),
   (0x30#8, .ringSet), (0x31#8, .ringRead)]

/-- The write commands of a group's number alone, or with an instant (TABLE 11(b)), with the count of their parameter
bytes. -/
def groupWriteCommands : List (Nat × (FrameEvent → Instr)) :=
  [(21, .groupSet), (7, .groupArm), (1, .groupDisarm), (1, .groupCommitNow), (1, .groupDiscard), (1, .groupOff),
   (1, .groupRetry), (1, .groupAbandon)]

/-- A group or window number as a parameter byte. -/
def numberByte (i : Fin 8) : Byte := BitVec.ofNat 8 i.val

/-- The parameter bytes of GROUP SET after the group number (TABLE 11(b)). -/
def GroupConfig.bytes (c : GroupConfig) : List Byte :=
  beBytes 1 c.trigger.code ++ beBytes 4 c.period.toNat ++ beBytes 4 c.cycleOffset.toNat ++
    beBytes 2 c.guardTicks.toNat ++ beBytes 2 c.quota ++ flagByte c.marker.isSome ++
    beBytes 4 (c.marker.getD 0).toNat ++ flagByte c.reportCommits ++ flagByte c.reportLates

/-- The parameter bytes of a RING SET with enable yes (TABLE 11(b)). -/
def RingParams.bytes (p : RingParams) : List Byte :=
  flagByte true ++ beBytes 4 p.base ++ beBytes 2 p.capacity ++ beBytes 4 p.headAddr ++ beBytes 4 p.tailAddr ++
    beBytes 2 p.threshold ++ [p.urgencyMask]

/-! ## What a requester asks -/

/-- The request `q` of requester `o` stands in its place or has been granted (R119). -/
def State.asks (s : State) (o : Owner) (q : Request) : Prop :=
  s.arbiter.place o = some q ∨ s.arbiter.outstanding = some (o, q)

/-- The drain engine is BUSY with this step of a drain of group `g`, and asks for its write `q` (R57, R59). -/
def State.serves (s : State) (g : GroupNum) (kind : DrainKind) (step : Step) (q : Request) : Prop :=
  (∃ st, s.engine = some { group := g, kind := kind, step := step, status := st }) ∧ s.asks .drain q

/-- The write of a marker word with these 32 bits (R59, R197). -/
def markerWrite (m : Addr) (bits : Nat) : Request := ⟨m, .write, 0xF#4, BitVec.ofNat 32 bits⟩

/-- A group at its take with a progress record that says begun no (R58). -/
def Group.takenAt (x : Group) (now : Time) : Group :=
  { x with state := .draining, progress := { x.progress with begun := true, entriesWritten := 0, startTime := now } }

/-- A group that the flush seals and queues after its epoch (R169). -/
def Group.flushQueued (x : Group) (now : Time) : Group :=
  { x with
    state := .queued, outgoing := x.filling, filling := [], sealTime := now, epochInstant := now, nextInstant := none
    returnState := .opened }

/-- The write of an entry (R59). -/
def Entry.write (e : Entry) : Request := ⟨e.addr, .write, e.lanes, e.data⟩

/-- The IDLE engine takes group `h` of fields `z`, whose progress record says begun no, at TIME `now`: the group is DRAINING, and
its START marker, or without a marker its first entry, is asked for (R58, R59). -/
def State.takesUp (t : State) (h : GroupNum) (z : Group) (now : Time) : Prop :=
  t.group h = z.takenAt now ∧
    (∀ m, z.marker = some m → t.serves h .epoch .start (markerWrite m ((2 * z.epoch.toNat + 1) % 2 ^ 31))) ∧
    (∀ e tail, z.outgoing = e :: tail → z.marker = none → t.serves h .epoch .entry e.write)

/-- What follows in `t` where an event of the timebase, met in `s` at the new TIME `now`, gives the groups the fields `v` and
hands over the records `bs`. The groups become QUEUED in ascending number (R55). A BUSY engine leaves it at that. An IDLE one
takes them from the head (R58): those that have neither a marker nor an entry, `done`, complete one after another at their takes,
each with its COMMIT_DONE record behind `bs`, and take their return states (R40, R62, R64); the next one, if any, has a step to
ask for, and stays with the engine, the others waiting behind it. -/
def QueueFollows (s t : State) (v : GroupNum → Group) (now : Time) (bs : List RecordBody) : Prop :=
  let q := allGroups.filter (fun g => (s.group g).state != .queued && (v g).state == .queued)
  let begins := fun g => (v g).progress.begun = false ∧ (v g).progress.abandonPending = false
  let empty := fun g => (v g).marker = none ∧ (v g).outgoing = []
  (s.engine ≠ none → (∀ g, t.group g = v g) ∧ t.commitQueue = s.commitQueue ++ q ∧ Reports s t bs) ∧
    (s.engine = none → ∀ done rest, q = done ++ rest →
      (∀ g ∈ done, begins g ∧ empty g ∧ ((v g).trigger = .periodic → (v g).guardTicks.toNat < (v g).period.toNat)) →
      (∀ h tail, rest = h :: tail → begins h ∧ ¬ empty h) →
      (∀ g ∈ done, Returned now ((v g).takenAt now).epochDone (t.group g) 0) ∧
        (∀ h tail, rest = h :: tail → t.takesUp h (v h) now) ∧ (rest = [] → t.engine = none) ∧
        (∀ g, g ∉ done → rest.head? ≠ some g → t.group g = v g) ∧ t.commitQueue = rest.tail ∧
        Reports s t (bs ++ done.flatMap (fun g => ((v g).takenAt now).doneReport g 0 now)))

/-- The command is memory's answer to the outstanding transaction, by its owner and what the owner waits for (R123). -/
def State.answeredBy (s : State) (c : Instr) : Prop :=
  match s.arbiter.owner, c with
  | some .drain, .drainStepResponse _ => s.engine ≠ none
  | some .record, .recordWordResponse _ =>
    (∃ k slot seq st, s.records.writer = some (.record k slot seq, st)) ∨
      ∃ again st, s.records.writer = some (.disowned false again, st)
  | some .record, .headWordResponse _ =>
    (∃ st, s.records.writer = some (.initialHead, st)) ∨
      (∃ p gen slot urgent st, s.records.writer = some (.head p gen slot urgent, st)) ∨
      ∃ again st, s.records.writer = some (.disowned true again, st)
  | some .initiator, .initiatorResponse _ _ => ∃ tk, s.port = .passing tk
  | _, _ => False

end Sys2Proof.Machine
end

