-- ==== Sys2Proof/WellFormed.lean ====
section
/-! DEFINITION. Which commands are well formed: a transaction is one aligned word and a read is of all four lanes
(0.6.3); an UNKNOWN_COMMAND frame carries an undefined code and a FRAME_ERROR frame a bit count that is not a multiple
of 8 (R183). -/

namespace Sys2Proof

/-- The command codes of TABLE 11(b). -/
def definedCodes : List Byte :=
  [0x01#8, 0x02#8, 0x03#8, 0x04#8, 0x05#8, 0x08#8, 0x09#8, 0x0A#8, 0x0B#8, 0x10#8, 0x11#8, 0x20#8, 0x21#8, 0x22#8,
   0x23#8, 0x24#8, 0x25#8, 0x26#8, 0x27#8, 0x28#8, 0x30#8, 0x31#8]

/-- A transaction as the bus carries it (0.6.3): a word address, all four lanes on a read. -/
def Transaction.wf (t : Transaction) : Bool :=
  t.addr.toNat % 4 == 0 && (t.dir == .write || t.lanes == Lanes.all)

/-- Well-formedness of a command. -/
def Instr.wf : Instr → Bool
  | .unknownCommand code _ => !definedCodes.contains code
  | .frameError bits => bits.length % 8 != 0
  | .upstreamTransactionTake t => t.wf
  | .identify _ | .statusRead _ | .statusClear _ | .modeSet _ | .softReset _ | .tickSet _ | .timeSet _ | .timeRead _
  | .cycleSet _ | .windowSet _ | .windowRead _ | .groupSet _ | .groupArm _ | .groupDisarm _ | .groupCommitNow _
  | .groupDiscard _ | .groupOff _ | .groupRead _ | .groupRetry _ | .groupAbandon _ | .ringSet _ | .ringRead _
  | .tick | .sealPointReached _ | .commitInstantReached _ | .holdExpiry | .syncEdge _ | .freezeBegin | .freezeEnd
  | .hardwareReset | .resetRise | .powerOn _ | .grant | .drainTake | .recordBegin | .heldWritePlacement
  | .flushComplete | .softResetCompletion | .drainStepResponse _ | .recordWordResponse _ | .headWordResponse _
  | .initiatorResponse _ _ => true

end Sys2Proof
end

