-- ==== Sys2Proof/Certificates/Slice0/Obligations.lean ====
section
/-! DEFINITION. The statements for the provers. A statement's equation `exec c s = .next t` says that the command completes and
what every field of the device holds after it: whatever `t` does not change is unchanged. `Settled s` says that what follows
at once has followed (see `Safety`); `LinkReady s` that the link takes a frame. -/

open Sys2Proof Sys2Proof.Machine

/-! ## The machine -/

/-- A step takes the command at the front of the queue (the model's interface). -/
def Obligations.StepRunsTheFrontCommand : Prop :=
  ∀ (c : Instr) (rest : List Instr) (s : State), s.pending = c :: rest → step s = exec c { s with pending := rest }

/-- On an empty queue a step is one period of CLK (R74, R79): a DESIGN CHOICE of the model, log entry 3. -/
def Obligations.EmptyQueueIsOneClkPeriod : Prop :=
  ∀ s : State, Settled s → s.run = .running → s.pending = [] →
    step s =
      if s.timebase.frozen then .next s
      else if s.timebase.count + 1 < s.timebase.divisor then
        .next { s with timebase := { s.timebase with count := s.timebase.count + 1 } }
      else exec .tick s

/-- The state after reset meets every law, and the link is ready (R177). That the state is the one after power-on with RESET
high is log entry 1; that select is high in it is a DESIGN CHOICE of the model, log entry 2. -/
def Obligations.ResetMeetsEveryLaw : Prop :=
  Settled State.reset ∧ LinkReady State.reset ∧ QueueLaw State.reset ∧ BypassLaw State.reset ∧ PoolLaw State.reset ∧
    QuotaLaw State.reset ∧ AddressLaw State.reset ∧ ListLaw State.reset ∧ RecordQueueLaw State.reset ∧
    TimebaseLaw State.reset ∧ CountLaw State.reset ∧ EpochLaw State.reset ∧ WordLaw State.reset ∧ PlaceLaw State.reset

/-! ## Resets -/

/-- Power-on and hardware reset give every block the values of the reset tables and differ in the flags (R28, R54, R73, R93,
R117, R131, R141, R162, R176, R177, R178, R194). While the device does not run, no block takes anything (R176, R187). Three
clauses are the model's choices, DESIGN CHOICE: that a reset keeps the levels of the wires FREEZE, SYNC and select, and that
these levels are followed while the device does not run (R187 says the link wires are ignored then), are log entry 2; the
operand of POWER_ON is log entry 24. -/
def Obligations.PowerOnAndHardwareReset : Prop :=
  (∀ s : State,
     (∀ runs,
       let w : Window :=
         { enabled := false, kind := .stage, base := 0, size := 0, group := 0, readView := .memory, fullPolicy := .refuse
           watchOn := .writes, watchData := false }
       let x : Group :=
         { state := .off, trigger := .manual, nextInstant := none, period := 0, cycleOffset := 0, guardTicks := 0
           quota := 0, marker := none, reportCommits := false, reportLates := false, epoch := 0, overrunCount := 0
           lateCount := 0, returnState := .opened, epochInstant := 0, sealTime := 0, faultStep := none, faultAddr := 0
           filling := [], outgoing := []
           progress := { begun := false, entriesWritten := 0, startTime := 0, abandonPending := false } }
       exec (.powerOn runs) s = .next
         { run := if runs then .running else .powerOnHold
           mode := .bypass
           timebase :=
             { divisor := 1, count := 0, freezeEnable := false, freezeLine := s.timebase.freezeLine
               syncLine := s.timebase.syncLine, holdLimit := 1024, time := 0, cycleLength := 65536, syncSelect := .none
               cyclePosition := 0, cycleNumber := 0 }
           windows := .fill w, port := .free, reply := none, groups := .fill x, commitQueue := [], engine := none
           arbiter := { outstanding := none, drainPlace := none, recordPlace := none, initiatorPlace := none }
           watch := none
           records :=
             { enabled := false, base := 0, capacity := 0, headAddr := 0, tailAddr := 0, threshold := 0, urgencyMask := 0
               producer := 0, generation := 0, consumer := 0, sequence := 0, urgentMark := none, queue := []
               lostCount := 0, writer := none }
           link :=
             { shifter := Shifter.idle, selectLow := s.link.selectLow, lastResult := .ok, changeCount := 0, dataOut := []
               flags := { pwr := true, hrst := false, srst := false, tail := false, stall := false, ringerr := false
                          frame := false } }
           irq := false, due := Due.none, choices := s.choices, pending := s.pending }) ∧
     (s.run = .running → ∃ t u, exec .hardwareReset s = .next t ∧ exec (.powerOn false) s = .next u ∧
       t = { u with run := .resetLow, link := { u.link with flags := { u.link.flags with pwr := false, hrst := true } } }) ∧
     (s.run ≠ .running → exec .hardwareReset s = .next s) ∧
     exec .resetRise s = .next { s with run := .running }) ∧
  (∀ s : State, s.run ≠ .running →
     (∀ c ∈ [Instr.tick, .grant, .drainTake, .recordBegin, .heldWritePlacement, .flushComplete, .softResetCompletion,
         .holdExpiry, .drainStepResponse true, .drainStepResponse false, .recordWordResponse true,
         .recordWordResponse false, .headWordResponse true, .headWordResponse false],
       exec c s = .next s) ∧
     (∀ tx, exec (.upstreamTransactionTake tx) s = .next s) ∧
     (∀ ok data, exec (.initiatorResponse ok data) s = .next s) ∧
     (∀ g, exec (.sealPointReached g) s = .next s ∧ exec (.commitInstantReached g) s = .next s) ∧
     (∀ bits, exec (.frameError bits) s = .next s) ∧
     (∀ (f : FrameEvent → Instr), (∃ p ∈ linkCommands, f = p.2) ∨
         (∃ code, (∀ p ∈ linkCommands, p.1 ≠ code) ∧ f = .unknownCommand code) →
       (∀ ps, exec (f (.whole ps)) s = .next s) ∧ (∀ bits, exec (f (.clock bits)) s = .next s) ∧
       exec (f .fall) s = .next { s with link := { s.link with selectLow := true } } ∧
       exec (f .rise) s = .next { s with link := { s.link with selectLow := false } }) ∧
     (∀ e, exec (.syncEdge e) s = .next { s with timebase := { s.timebase with syncLine := e == .rise } }) ∧
     exec .freezeBegin s = .next { s with timebase := { s.timebase with freezeLine := true } } ∧
     exec .freezeEnd s = .next { s with timebase := { s.timebase with freezeLine := false } })

/-! ## Invariants that every step keeps -/

/-- After every step everything that follows at once has followed: no take, no completion of a flush or of a soft reset,
no record and no grant is due (R58, R121, R149, R171, R174); and IRQ is asserted exactly while one of the three terms
holds (R159), U being (P − C) mod N (R144). That it follows in the same step is the model's reading, log entry 5. -/
def Obligations.StepKeepsNothingDue : Prop :=
  ∀ s t : State, Settled s → step s = .next t →
    Settled t ∧
      (t.irq = true ↔
        (t.records.enabled = true ∧ t.records.urgentMark ≠ none) ∨
        (t.records.enabled = true ∧ 0 < t.records.threshold ∧
          t.records.threshold ≤
            (t.records.producer + t.records.capacity - t.records.consumer % t.records.capacity) % t.records.capacity) ∨
        (t.link.flags.tail = true ∨ t.link.flags.stall = true ∨ t.link.flags.ringerr = true))

/-- A group is in the commit queue exactly while it is QUEUED, at most once, and DRAINING exactly while the drain context is
its own (R55, R57). The initiator path has a request in its place, or the outstanding transaction, only while the port is
PASSING, and not both (R101, R119). -/
def Obligations.StepKeepsQueueLaw : Prop :=
  (∀ s t : State, QueueLaw s → step s = .next t → QueueLaw t) ∧
  (∀ s t : State, PlaceLaw s → step s = .next t → PlaceLaw t)

/-- While the mode is BYPASS the store is empty and every group is OFF or OPEN (R163). -/
def Obligations.StepKeepsBypassLaw : Prop :=
  ∀ s t : State, QueueLaw s → QuotaLaw s → BypassLaw s → step s = .next t → BypassLaw t

/-- The entries in use never exceed the pool, so that the free count and the occupancies always sum to 256 (R1); no group's
occupancy exceeds its quota (R6), a group that is OFF holds nothing (R30), and no write is held for it (R22). -/
def Obligations.StepKeepsPoolAndQuotas : Prop :=
  ∀ s t : State, PoolLaw s → QuotaLaw s → step s = .next t →
    PoolLaw t ∧ t.freeCount + t.poolUsed = 256 ∧ QuotaLaw t

/-- Enabled windows, the enabled ring and the markers of groups that are not OFF stay apart (R95). -/
def Obligations.StepKeepsAddressLaw : Prop :=
  ∀ s t : State, QueueLaw s → AddressLaw s → step s = .next t → AddressLaw t

/-- A word address stays unique in each list of a group, and appears in the lists of at most one group (R5). The second part
rests on what R5 rests it on: that a staged entry lies in an enabled STAGE window of its group (R10, R97), that enabled
windows stay apart (R95, R98), and that a group out of service, or one whose epoch is over, holds no entry (R30). -/
def Obligations.StepKeepsListLaw : Prop :=
  (∀ s t : State, ListLaw s → step s = .next t → ListLaw t) ∧
  (∀ s t : State, QueueLaw s → BypassLaw s → QuotaLaw s → AddressLaw s → EpochLaw s → WordLaw s → step s = .next t →
     EpochLaw t ∧ WordLaw t ∧ WordsApart t)

/-- The record queue never holds more than 16 records (R142), the divider count stays below the divisor and the cycle position
below the cycle length (R74, R87), and the saturating counts stay at or below 65535 (R35, R37, R134, R143). -/
def Obligations.StepKeepsCountsInRange : Prop :=
  ∀ s t : State, RecordQueueLaw s → TimebaseLaw s → CountLaw s → step s = .next t →
    RecordQueueLaw t ∧ TimebaseLaw t ∧ CountLaw t

/-! ## Frames -/

/-- A whole frame of a command is its parts one after another: select falls, the bits of its bytes are clocked in,
select rises (R179, R180). At the fall of select, and after each bit clocked in, data out shows the bit that the whole
frame gives in that place, most significant bit of each device byte first; outside a frame it is not driven (R180). The
parts of a frame as rows are the model's form of the commands, log entry 13; `dataOut` keeps the bits shown, log entry 14. -/
def Obligations.WholeFrameIsItsParts : Prop :=
  ∀ (s : State) (p : Byte × (FrameEvent → Instr)) (ps : List Byte), p ∈ linkCommands → Settled s → s.run = .running →
    s.link.selectLow = false →
    ∃ s1 s2 t, exec (p.2 .fall) s = .next s1 ∧ exec (p.2 (.clock (bitsOf (p.1 :: ps)))) s1 = .next s2 ∧
      exec (p.2 .rise) s2 = .next t ∧ exec (p.2 (.whole ps)) s = .next t ∧
      t.link.dataOut.length = 8 * (ps.length + 1) ∧ t.dataOutLevel = none ∧
      (∀ n < 8 * (ps.length + 1), ∃ u, exec (p.2 (.clock ((bitsOf (p.1 :: ps)).take n))) s1 = .next u ∧
        u.dataOutLevel = t.link.dataOut[n]?)

/-- The read data of a frame is the snapshot of its command byte: once the command byte is complete, what the link sends
and holds does not depend on the rest of the device (R182). -/
def Obligations.ReadDataIsTheSnapshot : Prop :=
  ∀ (s u : State) (p : Byte × (FrameEvent → Instr)) (bits : List Bool), p ∈ linkCommands → Settled s → Settled u →
    s.run = .running → u.run = .running → s.link = u.link → s.link.shifter.phase ≠ .command →
    ∃ s' u', exec (p.2 (.clock bits)) s = .next s' ∧ exec (p.2 (.clock bits)) u = .next u' ∧ s'.link = u'.link

/-- Every frame that begins in RESETTING is answered BUSY and has no other effect; a bad bit count sets no FRAME flag
(R186). Data out shows the last result and then zeros, in a frame of a bad bit count down to its last bit (R180, R181). -/
def Obligations.FramesInResettingAreBusy : Prop :=
  ∀ s : State, Settled s → s.run = .running → s.mode = .resetting → s.link.selectLow = false →
    (∀ p ∈ linkCommands, ∀ ps : List Byte,
      exec (p.2 (.whole ps)) s = .next (s.framed .busy (s.writeSent ps.length))) ∧
    (∀ code ps, (Instr.unknownCommand code (.whole ps)).wf = true →
      exec (.unknownCommand code (.whole ps)) s = .next (s.framed .busy (s.writeSent ps.length))) ∧
    (∀ bits, (Instr.frameError bits).wf = true →
      exec (.frameError bits) s =
        .next (s.framedBits .busy ((bitsOf (s.writeSent (bits.length / 8))).take bits.length)))

/-- The checks of R183 before the command's own: a frame with no bit has no effect and no result; a bit count that is not a
multiple of 8 gives FRAME, sets the FRAME flag and increases the change count; an undefined code gives UNKNOWN; a write
command with another parameter byte count than its own, or a read command with fewer, gives LENGTH. None has another effect
(R183, R188, R189). A frame of a bad bit count shows the device's bytes bit by bit, the unfinished one as well: the last
result, the filler, and read data only for a read command (R180, R181). -/
def Obligations.FrameChecksRefuseTheFrame : Prop :=
  ∀ s : State, Settled s → LinkReady s →
    (∀ p ∈ linkCommands, ∃ s1, exec (p.2 .fall) s = .next s1 ∧
      exec (p.2 .rise) s1 =
        .next { s with link := { s.link with selectLow := false, shifter := Shifter.idle, dataOut := [] } }) ∧
    (∀ bits, (Instr.frameError bits).wf = true → ∃ data : List Byte,
      ((∀ p ∈ linkCommands, ∀ n, commandForm p.1 = some (.read n) → bits.take 8 ≠ bitsOfByte p.1) → data = []) ∧
      (bits.take 8 = bitsOfByte 0x01#8 → data = [0x46, 0x24, 0x08, 0x01, 0x01, 0x00, 0x08, 0x08, 0x10]) ∧
      exec (.frameError bits) s =
        let t := s.framedBits .frame ((bitsOf (s.readSent data (bits.length / 8))).take bits.length)
        .next { t with link := { t.link with
          flags := { s.link.flags with frame := true }, changeCount := s.link.changeCount + 1 } }) ∧
    (∀ code ps, (Instr.unknownCommand code (.whole ps)).wf = true →
      exec (.unknownCommand code (.whole ps)) s = .next (s.framed .unknown (s.writeSent ps.length))) ∧
    (∀ p ∈ linkCommands, ∀ (ps : List Byte) (n : Nat),
      (commandForm p.1 = some (.write n) ∧ ps.length ≠ n) ∨ (commandForm p.1 = some (.read n) ∧ ps.length < n) →
      exec (p.2 (.whole ps)) s = .next (s.framed .length (s.writeSent ps.length)))

/-! ## The read commands -/

/-- IDENTIFY returns the identity and the fixed sizes, in every mode other than RESETTING, and changes no state (R193). -/
def Obligations.IdentifyReturnsTheIdentity : Prop :=
  ∀ (s : State) (ps : List Byte), Settled s → LinkReady s →
    exec (.identify (.whole ps)) s =
      .next (s.framed .ok (s.readSent [0x46, 0x24, 0x08, 0x01, 0x01, 0x00, 0x08, 0x08, 0x10] ps.length))

/-- STATUS READ, TIME READ and RING READ return the values of their blocks in the order of TABLE 11(d) and change no state
(R85, R161, R190). -/
def Obligations.StatusTimeAndRingReads : Prop :=
  ∀ (s : State) (ps : List Byte), Settled s → LinkReady s →
    (let f := s.link.flags
     exec (.statusRead (.whole ps)) s = .next (s.framed .ok (s.readSent
       (beBytes 1 s.mode.code ++ beBytes 1 (s.timebase.freezeEnable && s.timebase.freezeLine).toNat ++
         beBytes 1 (f.pwr.toNat + 2 * f.hrst.toNat + 4 * f.srst.toNat + 8 * f.tail.toNat + 16 * f.stall.toNat +
           32 * f.ringerr.toNat + 64 * f.frame.toNat) ++
         [s.link.changeCount] ++ beBytes 2 (256 - s.poolUsed) ++ beBytes 1 s.commitQueue.length ++
         (match s.engine with
           | none => [0xFF]
           | some c => beBytes 1 c.group.val) ++
         beBytes 1 s.records.queue.length) ps.length))) ∧
    exec (.timeRead (.whole ps)) s = .next (s.framed .ok (s.readSent
      (beBytes 6 s.timebase.time.toNat ++ beBytes 4 s.timebase.cyclePosition ++
        beBytes 4 s.timebase.cycleNumber.toNat) ps.length)) ∧
    (let r := s.records
     exec (.ringRead (.whole ps)) s = .next (s.framed .ok (s.readSent
       (beBytes 1 r.enabled.toNat ++ beBytes 4 r.base.toNat ++ beBytes 2 r.capacity ++ beBytes 4 r.headAddr.toNat ++
         beBytes 4 r.tailAddr.toNat ++ beBytes 2 r.threshold ++ [r.urgencyMask] ++ beBytes 2 r.producer ++
         beBytes 2 r.generation ++ beBytes 2 r.consumer ++ beBytes 2 r.unconsumed ++
         (match r.urgentMark with
           | none => [0, 0, 0]
           | some m => 1 :: beBytes 2 m) ++
         beBytes 1 r.queue.length ++ beBytes 2 r.lostCount ++ beBytes 4 r.sequence.toNat) ps.length)))

/-- WINDOW READ and GROUP READ return the record of the number in host byte 1, in the order of TABLE 11(d), and change no
state; a number above 7 gives PARAM and data of 00H (R53, R100, R185). -/
def Obligations.WindowAndGroupReads : Prop :=
  ∀ (s : State) (ps : List Byte), Settled s → LinkReady s →
    (∀ i : WindowNum, let w := s.windows.get i
      exec (.windowRead (.whole (numberByte i :: ps))) s = .next (s.framed .ok (s.readSent
        (beBytes 1 w.enabled.toNat ++ beBytes 1 w.kind.code ++ beBytes 4 w.base.toNat ++ beBytes 4 w.size.toNat ++
          [numberByte w.group] ++ beBytes 1 w.readView.code ++ beBytes 1 w.fullPolicy.code ++
          beBytes 1 w.watchOn.code ++ beBytes 1 w.watchData.toNat) (ps.length + 1)))) ∧
    (∀ g : GroupNum, let x := s.groups.get g
      exec (.groupRead (.whole (numberByte g :: ps))) s = .next (s.framed .ok (s.readSent
        (beBytes 1 x.state.code ++ beBytes 1 x.trigger.code ++
          (match x.nextInstant with
            | none => [0, 0, 0, 0, 0, 0, 0]
            | some n => 1 :: beBytes 6 n.toNat) ++
          beBytes 4 x.period.toNat ++ beBytes 4 x.cycleOffset.toNat ++ beBytes 2 x.guardTicks.toNat ++
          beBytes 2 x.quota ++
          (match x.marker with
            | none => [0, 0, 0, 0, 0]
            | some m => 1 :: beBytes 4 m.toNat) ++
          beBytes 1 x.reportCommits.toNat ++ beBytes 1 x.reportLates.toNat ++ beBytes 4 x.epoch.toNat ++
          beBytes 2 x.overrunCount ++ beBytes 2 x.lateCount ++ beBytes 1 x.returnState.code ++
          beBytes 6 x.epochInstant.toNat ++ beBytes 6 x.sealTime.toNat ++ beBytes 1 (faultStepCode x.faultStep) ++
          beBytes 4 x.faultAddr.toNat ++ beBytes 2 x.filling.length ++ beBytes 2 x.outgoing.length)
        (ps.length + 1)))) ∧
    (∀ n : Byte, 7 < n.toNat →
      exec (.windowRead (.whole (n :: ps))) s = .next (s.framed .param (s.readSent [] (ps.length + 1))) ∧
      exec (.groupRead (.whole (n :: ps))) s = .next (s.framed .param (s.readSent [] (ps.length + 1))))

/-! ## The status block -/

/-- STATUS CLEAR: PARAM for a mask with bit 7, STALE for a count that differs, and otherwise the flags named in the mask are
cleared, nothing else changes, and IRQ follows its condition (R191). -/
def Obligations.StatusClearClearsTheNamedFlags : Prop :=
  ∀ (s : State) (m c : Byte), Settled s → LinkReady s →
    exec (.statusClear (.whole [m, c])) s =
      if m.getLsbD 7 then .next (s.framed .param (s.writeSent 2))
      else if c ≠ s.link.changeCount then .next (s.framed .stale (s.writeSent 2))
      else
        let f := s.link.flags
        let kept : StatusFlags :=
          { pwr := f.pwr && !m.getLsbD 0, hrst := f.hrst && !m.getLsbD 1, srst := f.srst && !m.getLsbD 2
            tail := f.tail && !m.getLsbD 3, stall := f.stall && !m.getLsbD 4, ringerr := f.ringerr && !m.getLsbD 5
            frame := f.frame && !m.getLsbD 6 }
        let t := s.framed .ok (s.writeSent 2)
        .next { t with link := { t.link with flags := kept }, irq := irqCondition s.records kept }

/-! ## Modes -/

/-- MODE SET by the table of R164, where no flush begins; the direct entry to BYPASS leaves every ARMED group OPEN (R165,
R166). -/
def Obligations.ModeSetWithoutAFlush : Prop :=
  ∀ (s : State) (m : Byte), Settled s → LinkReady s →
    (2 ≤ m.toNat → exec (.modeSet (.whole [m])) s = .next (s.framed .param (s.writeSent 1))) ∧
    (s.mode = .bypass →
      exec (.modeSet (.whole [1])) s = .next { s.framed .ok (s.writeSent 1) with mode := .active } ∧
      exec (.modeSet (.whole [0])) s = .next (s.framed .ok (s.writeSent 1))) ∧
    (s.mode = .quiescing →
      exec (.modeSet (.whole [1])) s = .next (s.framed .state (s.writeSent 1)) ∧
      exec (.modeSet (.whole [0])) s = .next (s.framed .ok (s.writeSent 1))) ∧
    (s.mode = .active →
      exec (.modeSet (.whole [1])) s = .next (s.framed .ok (s.writeSent 1)) ∧
      ((∀ g, (s.group g).occupancy = 0 ∧
          ((s.group g).state = .off ∨ (s.group g).state = .opened ∨ (s.group g).state = .armed)) →
        exec (.modeSet (.whole [0])) s =
          .next { s.framed .ok (s.writeSent 1) with
            mode := .bypass
            groups := s.groups.map (fun x =>
              if x.state = .armed then { x with state := .opened, nextInstant := none, returnState := .opened }
              else x) }))

/-- MODE SET BYPASS begins the flush: the mode, the held write's reason, and every group by the table of R167; the groups
queued stand in ascending number behind those already queued. With the drain engine busy, or with none queued and a group
STALLED, nothing else changes; with the engine IDLE the first group queued is taken at once and its first step asked for (R58,
R59, R167 step 3). That the take falls in the same step is the model's reading, log entry 5. -/
def Obligations.ModeSetBeginsTheFlush : Prop :=
  ∀ s : State, Settled s → LinkReady s → s.mode = .active → ¬ s.bypassAtOnce →
    let flushed := fun x : Group =>
      match x.state with
      | .off | .queued | .draining | .stalled => x
      | .opened | .armed =>
        if x.filling = [] then { x with state := .opened, nextInstant := none, returnState := .opened }
        else
          { x with
            state := .queued, outgoing := x.filling, filling := [], sealTime := s.time, epochInstant := s.time
            nextInstant := none, returnState := .opened }
      | .sealed =>
        { x with
          state := .queued, epochInstant := x.nextInstant.getD s.time, nextInstant := none
          returnState := .opened }
    let queued := allGroups.filter (fun g =>
      (s.group g).state == .sealed ||
        (((s.group g).state == .opened || (s.group g).state == .armed) && !(s.group g).filling.isEmpty))
    let port := match s.port with
      | .held t g _ n => .held t g .mode n
      | .free => .free
      | .passing t => .passing t
    (s.engine ≠ none ∨ (queued = [] ∧ ∃ g, (s.group g).state = .stalled) →
      exec (.modeSet (.whole [0])) s =
        .next { s.framed .ok (s.writeSent 1) with
          mode := .quiescing, port := port, groups := s.groups.map flushed, commitQueue := s.commitQueue ++ queued }) ∧
    (∀ g rest, queued = g :: rest → s.engine = none →
      let x := flushed (s.group g)
      x.progress.begun = false → x.progress.abandonPending = false → ¬ (x.marker = none ∧ x.outgoing = []) →
      ∃ t, exec (.modeSet (.whole [0])) s = .next t ∧ t.mode = .quiescing ∧ t.port = port ∧ t.commitQueue = rest ∧
        t.link = (s.framed .ok (s.writeSent 1)).link ∧ t.group g = x.takenAt s.time ∧
        (∀ h, h ≠ g → t.group h = flushed (s.group h)) ∧
        (∀ m, x.marker = some m → t.serves g .epoch .start (markerWrite m ((2 * x.epoch.toNat + 1) % 2 ^ 31))) ∧
        (∀ e tail, x.outgoing = e :: tail → x.marker = none → t.serves g .epoch .entry e.write))

/-- SOFT RESET with the memory port idle and no transaction kept completes in the happening of the command: every block
takes its soft-reset values, the timebase keeps its own, SRST is set and the change count increases (R173, R174). In
RESETTING the soft reset completes at the moment the memory port is idle, in the same way, memory's answer to the transaction
that was outstanding having no other effect but the initiator's reply (R71, R128, R153); a transaction kept taken is
requested again as a plain pass-through and granted (R113). That such a transaction holds no window is the model's choice,
log entry 32; that the completion falls in the same step is its reading, log entry 5. -/
def Obligations.SoftResetCompletesWithAnIdlePort : Prop :=
  let w : Window :=
    { enabled := false, kind := .stage, base := 0, size := 0, group := 0, readView := .memory, fullPolicy := .refuse
      watchOn := .writes, watchData := false }
  let x : Group :=
    { state := .off, trigger := .manual, nextInstant := none, period := 0, cycleOffset := 0, guardTicks := 0, quota := 0
      marker := none, reportCommits := false, reportLates := false, epoch := 0, overrunCount := 0, lateCount := 0
      returnState := .opened, epochInstant := 0, sealTime := 0, faultStep := none, faultAddr := 0, filling := []
      outgoing := [], progress := { begun := false, entriesWritten := 0, startTime := 0, abandonPending := false } }
  let done := fun (s : State) (l : Link) (kept : Option Taken) (reply : Option Reply) => (
    { run := .running, mode := .bypass, timebase := s.timebase, windows := .fill w
      port := match kept with
        | none => .free
        | some tk => .passing { tk with disposition := .pass, window := none }
      reply := reply, groups := .fill x, commitQueue := [], engine := none
      arbiter :=
        { outstanding := kept.map (fun tk => (.initiator, ⟨tk.tx.addr, tk.tx.dir, tk.tx.lanes, tk.tx.data⟩))
          drainPlace := none, recordPlace := none, initiatorPlace := none }
      watch := none
      records :=
        { enabled := false, base := 0, capacity := 0, headAddr := 0, tailAddr := 0, threshold := 0, urgencyMask := 0
          producer := 0, generation := 0, consumer := 0, sequence := 0, urgentMark := none, queue := [], lostCount := 0
          writer := none }
      link := { l with
        lastResult := .ok, changeCount := l.changeCount + 1
        flags := { pwr := l.flags.pwr, hrst := l.flags.hrst, srst := true, tail := false, stall := false
                   ringerr := false, frame := false } }
      irq := false, due := Due.none, choices := s.choices, pending := s.pending } : State)
  (∀ s : State, Settled s → LinkReady s → s.arbiter.outstanding = none → (∀ tk, s.port ≠ .passing tk) →
     exec (.softReset (.whole [])) s =
       .next (done s (s.framed .ok (s.writeSent 0)).link none (if s.port = .free then s.reply else some .error))) ∧
  (∀ s : State, s.run = .running → s.mode = .resetting → s.arbiter.outstanding = none →
     (s.port = .free → exec .softResetCompletion s = .next (done s s.link none s.reply)) ∧
     (∀ tk, s.port = .passing tk → exec .softResetCompletion s = .next (done s s.link (some tk) s.reply))) ∧
  (∀ (s : State) (c : Instr), Settled s → s.run = .running → s.mode = .resetting → s.answeredBy c →
     (s.arbiter.owner ≠ some .initiator →
       (s.port = .free → exec c s = .next (done s s.link none s.reply)) ∧
       (∀ tk, s.port = .passing tk → exec c s = .next (done s s.link (some tk) s.reply))) ∧
     (s.arbiter.owner = some .initiator → ∃ reply, exec c s = .next (done s s.link none (some reply))))

/-- SOFT RESET with a transaction outstanding: the mode becomes RESETTING, a held write is answered ERROR, every request
not granted is withdrawn, and the outstanding transaction, the groups, the queue and the timebase stay (R23, R71, R113,
R129, R173). A transaction whose request is withdrawn stays taken, its watch context closed (R113, R141). That the drain
context stays is the model's reading, log entry 23; that the withdrawn transaction loses its overlay disposition and its held
window at the command already, and not only when it is requested again, is the model's choice, log entry 32. -/
def Obligations.SoftResetWithABusyPort : Prop :=
  ∀ s : State, Settled s → LinkReady s → s.arbiter.outstanding ≠ none →
    ∃ t, exec (.softReset (.whole [])) s = .next t ∧ t.mode = .resetting ∧
      t.arbiter.outstanding = s.arbiter.outstanding ∧ t.arbiter.drainPlace = none ∧ t.arbiter.recordPlace = none ∧
      (∀ tk, s.port = .passing tk → t.arbiter.initiatorPlace = none ∧
        (s.arbiter.initiatorPlace = none → t.port = s.port ∧ t.watch = s.watch) ∧
        (s.arbiter.initiatorPlace ≠ none →
          t.port = .passing { tk with disposition := .pass, window := none } ∧ t.watch = none)) ∧
      (∀ tk g r n, s.port = .held tk g r n → t.port = .free ∧ t.reply = some .error) ∧
      (s.port = .free → t.port = .free ∧ t.reply = s.reply) ∧
      t.groups = s.groups ∧ t.commitQueue = s.commitQueue ∧ t.timebase = s.timebase ∧ t.windows = s.windows ∧
      t.engine = s.engine ∧ t.link = { s.link with
        selectLow := false, shifter := Shifter.idle, lastResult := .ok, dataOut := bitsOf (s.writeSent 0) }

/-! ## The timebase -/

/-- TICK SET: PARAM for a freeze enable code that is neither on nor off; otherwise the divisor (field 0 gives 65536), the
divider restarted, the freeze enable and the hold limit, and nothing else (R76). CYCLE SET: its refusals in the order of R91,
and otherwise the length, the SYNC selection and the cycle restarted, and nothing else (R92). -/
def Obligations.TickSetAndCycleSetWriteTheirFields : Prop :=
  ∀ s : State, Settled s → LinkReady s →
    (∀ (d : BitVec 16) (f : Byte) (h : BitVec 16),
      exec (.tickSet (.whole (beBytes 2 d.toNat ++ [f] ++ beBytes 2 h.toNat))) s =
        if 2 ≤ f.toNat then .next (s.framed .param (s.writeSent 5))
        else
          .next { s.framed .ok (s.writeSent 5) with
            timebase := { s.timebase with
              divisor := if d = 0 then 65536 else d.toNat
              count := 0, freezeEnable := f == 1, holdLimit := h.toNat } }) ∧
    (∀ (l : BitVec 32) (e : Byte),
      exec (.cycleSet (.whole (beBytes 4 l.toNat ++ [e]))) s =
        if l.toNat < 2 ∨ 4 ≤ e.toNat then .next (s.framed .param (s.writeSent 5))
        else if ∃ g, (s.group g).trigger = .cycle ∧
            ((s.group g).state = .armed ∨ (s.group g).state = .sealed ∨ (s.group g).state = .queued) then
          .next (s.framed .state (s.writeSent 5))
        else if ∃ g, (s.group g).trigger = .cycle ∧ (s.group g).state ≠ .off ∧
            l.toNat ≤ (s.group g).cycleOffset.toNat then
          .next (s.framed .param (s.writeSent 5))
        else
          .next { s.framed .ok (s.writeSent 5) with
            timebase := { s.timebase with
              cycleLength := l.toNat, cyclePosition := 0, cycleNumber := 0
              syncSelect := if e = 0 then .none else if e = 1 then .rise else if e = 2 then .fall else .both } })

/-- TIME SET: STATE while frozen; otherwise TIME takes the value, and where no point is passed over nothing else changes: a
move outside ACTIVE, a backward or same-value move, or a forward move that passes over no point (R38, R39, R81, R82, R83). -/
def Obligations.TimeSetWritesTime : Prop :=
  ∀ (s : State) (t1 : Time), Settled s → LinkReady s →
    (s.timebase.frozen = true →
      exec (.timeSet (.whole (beBytes 6 t1.toNat))) s = .next (s.framed .state (s.writeSent 6))) ∧
    (s.timebase.frozen = false →
      (s.mode ≠ .active ∨ (t1 - s.time).toNat = 0 ∨ 2 ^ 47 ≤ (t1 - s.time).toNat ∨
        ∀ g n, (s.group g).nextInstant = some n →
          (s.group g).trigger = .manual ∨ (s.group g).trigger = .cycle ∨
            (passedOver s.time t1 (n - (s.group g).guardTicks.setWidth 48) = false ∧
              passedOver s.time t1 n = false)) →
      exec (.timeSet (.whole (beBytes 6 t1.toNat))) s =
        .next { s.framed .ok (s.writeSent 6) with timebase := { s.timebase with time := t1 } })

/-- A forward TIME SET in ACTIVE reaches what it passes over, group by group in ascending number (R38; X is passed over
when (X − T0) mod 2^48 lies in 1 to (T1 − T0) mod 2^48): an ARMED group seals, and is queued when its commit instant is
passed over too; a SEALED group whose commit instant is passed over is queued; a group busy, or queued in the same pass,
with return state ARMED skips the instants whose seal points are passed over: a PERIODIC one advances past them, a ONESHOT
one drops its instant. `skipped g` instants are counted and reported in one OVERRUN record of cause JUMP with the new
TIME. Every other group stays as it is. `v` are the groups so reached; with the engine IDLE the takes of the queued ones
follow (R58), as many as complete at their takes and the next. That they fall in the same step is the model's reading, log
entry 5, and that their COMMIT_DONE records stand behind the OVERRUN records, in the order of the takes, log entries 9 and
10. -/
def Obligations.TimeSetReachesWhatItPassesOver : Prop :=
  ∀ (s : State) (t1 : Time), Settled s → LinkReady s → s.mode = .active → s.timebase.frozen = false →
    1 ≤ (t1 - s.time).toNat → (t1 - s.time).toNat < 2 ^ 47 →
    ∃ (t : State) (v : GroupNum → Group) (skipped : GroupNum → Nat),
      exec (.timeSet (.whole (beBytes 6 t1.toNat))) s = .next t ∧ t.time = t1 ∧
      QueueFollows s t v t1 (allGroups.flatMap (fun g => jumpReport g t1 (skipped g))) ∧
      (let passed := fun v : Time => 1 ≤ (v - s.time).toNat ∧ (v - s.time).toNat ≤ (t1 - s.time).toNat
       (∀ g, (s.group g).nextInstant = none ∨ (s.group g).trigger = .manual ∨ (s.group g).trigger = .cycle ∨
           (s.group g).state = .off ∨ (s.group g).state = .opened →
         v g = s.group g ∧ skipped g = 0) ∧
       (∀ g n, (s.group g).nextInstant = some n → (s.group g).trigger = .oneshot ∨ (s.group g).trigger = .periodic →
         let x := s.group g
         let k := skipped g
         let sealAt := fun i : Nat => n + BitVec.ofNat 48 (i * x.period.toNat) - x.guardTicks.setWidth 48
         let sealed := { x with state := .sealed, sealTime := t1, outgoing := x.filling, filling := [] }
         let committed := fun y : Group =>
           (x.trigger = .oneshot →
             v g = { y with
               state := .queued, epochInstant := n, nextInstant := none, returnState := .opened } ∧ k = 0) ∧
           (x.trigger = .periodic → x.period ≠ 0 →
             (∀ j < k, passed (sealAt (j + 1))) ∧ ¬ passed (sealAt (k + 1)) ∧
             v g = { y with
               state := .queued, epochInstant := n, returnState := .armed
               nextInstant := some (n + BitVec.ofNat 48 ((k + 1) * x.period.toNat))
               overrunCount := if k = 0 then x.overrunCount else min (x.overrunCount + k) 65535 })
         (x.state = .armed → ¬ passed (sealAt 0) → v g = x ∧ k = 0) ∧
         (x.state = .armed → passed (sealAt 0) → ¬ passed n → v g = sealed ∧ k = 0) ∧
         (x.state = .armed → passed (sealAt 0) → passed n → committed sealed) ∧
         (x.state = .sealed → ¬ passed n → v g = x ∧ k = 0) ∧
         (x.state = .sealed → passed n → committed x) ∧
         (x.state.busy = true → x.returnState = .opened ∨ ¬ passed (sealAt 0) → v g = x ∧ k = 0) ∧
         (x.state.busy = true → x.returnState = .armed → passed (sealAt 0) → x.trigger = .oneshot →
           v g = { x with
             nextInstant := none, returnState := .opened, overrunCount := min (x.overrunCount + 1) 65535 } ∧ k = 1) ∧
         (x.state.busy = true → x.returnState = .armed → passed (sealAt 0) → x.trigger = .periodic → x.period ≠ 0 →
           1 ≤ k ∧ (∀ j < k, passed (sealAt j)) ∧ ¬ passed (sealAt k) ∧
           v g = { x with
             nextInstant := some (n + BitVec.ofNat 48 (k * x.period.toNat))
             overrunCount := min (x.overrunCount + k) 65535 })))

/-- A tick advances TIME and the cycle and returns the divider count to 0; mode, windows and link stay; a held write's hold
count increases, and at the hold limit the write expires: the initiator is answered ERROR, the port becomes FREE, and, where
no group reaches a point, the REFUSED record of cause TIMEOUT with the new TIME is all that is handed over; a frozen timebase
gives no tick (R18, R19, R74, R75, R79, R81, R87). The records of a tick that reaches points as well are in
`TickReachesSealAndCommitPoints`. -/
def Obligations.TickAdvancesTheCounts : Prop :=
  ∀ s : State, Settled s → s.run = .running →
    (s.timebase.frozen = true → exec .tick s = .next s) ∧
    (s.timebase.frozen = false → ∃ t, exec .tick s = .next t ∧
      t.timebase = { s.timebase with
        count := 0, time := s.timebase.time + 1
        cyclePosition := if s.timebase.cyclePosition + 1 < s.timebase.cycleLength then s.timebase.cyclePosition + 1 else 0
        cycleNumber :=
          if s.timebase.cyclePosition + 1 < s.timebase.cycleLength then s.timebase.cycleNumber
          else s.timebase.cycleNumber + 1 } ∧
      t.mode = s.mode ∧ t.windows = s.windows ∧ t.link = s.link ∧ (s.mode ≠ .active → t.groups = s.groups) ∧
      (let quiet := s.mode ≠ .active ∨
         ∀ g, (s.group g).state = .off ∨ (s.group g).state = .opened ∨ (s.group g).trigger = .manual
       ((∀ tk g r k, s.port ≠ .held tk g r k) → t.port = s.port ∧ t.reply = s.reply ∧ (quiet → Reports s t [])) ∧
       (∀ tk g r k, s.port = .held tk g r k → (s.timebase.holdLimit = 0 ∨ k + 1 < s.timebase.holdLimit) →
         t.port = .held tk g r (k + 1) ∧ (quiet → Reports s t [])) ∧
       (∀ tk g r k, s.port = .held tk g r k → 0 < s.timebase.holdLimit → s.timebase.holdLimit ≤ k + 1 →
         t.port = .free ∧ t.reply = some .error ∧
         (quiet → Reports s t [.refused g (s.time + 1) .timeout tk.tx.addr tk.tx.lanes]))))

/-- The points a tick reaches in ACTIVE, group by group (R31 to R34, R37): `T` is the new TIME and `p` the new cycle
position. An ARMED group at its seal point seals, and with a guard of 0 is queued in the same event; a SEALED group at its
commit instant is queued; a busy group with return state ARMED at its seal point overruns with cause BUSY; every other
group stays as it is. The OVERRUN records stand in ascending group number, and before the TIMEOUT record of a write that
expires at the tick (R19, R142). `v` are the groups so reached; with the engine IDLE the takes of the queued ones follow
(R58), as many as complete at their takes and the next. That they fall in the same step is the model's reading, log entry 5,
and that their COMMIT_DONE records stand behind the OVERRUN and TIMEOUT records, in the order of the takes, log entries 9 and
10. -/
def Obligations.TickReachesSealAndCommitPoints : Prop :=
  ∀ s : State, Settled s → s.run = .running → s.mode = .active → s.timebase.frozen = false →
    ∃ (t : State) (v : GroupNum → Group) (skips : List GroupNum), exec .tick s = .next t ∧
      (let T := s.time + 1
       let p := t.timebase.cyclePosition
       let timed := fun x : Group => x.trigger = .oneshot ∨ x.trigger = .periodic
       let moved := fun x : Group => x.trigger = .cycle ∧ p ≠ s.timebase.cyclePosition
       let sealAt := fun x : Group =>
         (timed x ∧ x.nextInstant = some (T + x.guardTicks.setWidth 48)) ∨
           (moved x ∧ p + x.guardTicks.toNat = x.cycleOffset.toNat)
       let commitAt := fun x : Group => (timed x ∧ x.nextInstant = some T) ∨ (moved x ∧ p = x.cycleOffset.toNat)
       let overrunAt := fun x : Group => x.state.busy = true ∧ x.returnState = .armed ∧ sealAt x
       (∀ g, let x := s.group g
         let sealed := { x with state := .sealed, sealTime := T, outgoing := x.filling, filling := [] }
         let committed := fun y : Group =>
           (x.trigger = .oneshot →
             v g = { y with
               state := .queued, epochInstant := T, nextInstant := none, returnState := .opened }) ∧
           (x.trigger = .periodic →
             v g = { y with
               state := .queued, epochInstant := T, nextInstant := some (T + x.period.setWidth 48)
               returnState := .armed }) ∧
           (x.trigger = .cycle →
             v g = { y with state := .queued, epochInstant := T, nextInstant := none, returnState := .armed })
         (x.state = .armed → sealAt x → ¬ commitAt x → v g = sealed) ∧
         (x.state = .armed → sealAt x → commitAt x → committed sealed) ∧
         (x.state = .sealed → commitAt x → committed x) ∧
         (overrunAt x → x.trigger = .periodic →
           v g = { x with
             overrunCount := min (x.overrunCount + 1) 65535
             nextInstant := x.nextInstant.map (fun n => n + x.period.setWidth 48) }) ∧
         (overrunAt x → x.trigger = .oneshot →
           v g = { x with
             overrunCount := min (x.overrunCount + 1) 65535, nextInstant := none, returnState := .opened }) ∧
         (overrunAt x → x.trigger = .cycle →
           v g = { x with overrunCount := min (x.overrunCount + 1) 65535 }) ∧
         ((x.state = .off ∨ x.state = .opened) ∨ (x.state = .armed ∧ ¬ sealAt x) ∨ (x.state = .sealed ∧ ¬ commitAt x) ∨
             (x.state.busy = true ∧ ¬ overrunAt x) → v g = x)) ∧
       skips.Pairwise (· < ·) ∧ (∀ g, g ∈ skips ↔ overrunAt (s.group g)) ∧
       QueueFollows s t v T (skips.map (fun g => .overrun g T .busy 1) ++
         match s.port with
         | .held tk g _ k =>
           if 0 < s.timebase.holdLimit ∧ s.timebase.holdLimit ≤ k + 1 then
             [.refused g T .timeout tk.tx.addr tk.tx.lanes]
           else []
         | .free | .passing _ => []))

/-- A seal point that the timebase has reached is taken up by the group table, and a commit instant likewise; where none is
due the rows change nothing (R33, R34; the marks are the model's, log entry 6). The drain engine is busy. -/
def Obligations.DuePointsAreTakenUp : Prop :=
  ∀ (s : State) (g : GroupNum), Settled s → s.run = .running → s.engine ≠ none →
    (s.mode ≠ .active ∨ s.due.sealPoint.get g = false → exec (.sealPointReached g) s = .next s) ∧
    (s.mode ≠ .active ∨ s.due.commitInstant.get g = false → exec (.commitInstantReached g) s = .next s) ∧
    (s.mode = .active → s.due.sealPoint.get g = true → s.due.commitInstant.get g = false →
      (s.group g).state = .armed →
      exec (.sealPointReached g) s =
        .next { s with
          due := { s.due with sealPoint := s.due.sealPoint.set g false }
          groups := s.groups.set g { s.group g with
            state := .sealed, sealTime := s.time, outgoing := (s.group g).filling, filling := [] } }) ∧
    (s.mode = .active → s.due.commitInstant.get g = true → (s.group g).state = .sealed →
      (s.group g).trigger = .cycle →
      exec (.commitInstantReached g) s =
        .next { s with
          due := { s.due with commitInstant := s.due.commitInstant.set g false }
          commitQueue := s.commitQueue ++ [g]
          groups := s.groups.set g { s.group g with
            state := .queued, epochInstant := s.time, nextInstant := none, returnState := .armed } })

/-- An edge of SYNC: one that the selection does not take, or one in a freeze, changes nothing but the line; one that
qualifies puts the cycle position at 0 and increases the cycle number, whatever the position was (R79, R88). Where the
position was not 0, in ACTIVE, position 0 is then reached for the CYCLE groups, as at a tick (R32, R87): an ARMED one whose
offset equals its guard seals, and with a guard of 0 is queued; a SEALED one with offset 0 is queued; a busy one with return
state ARMED overruns; every other group stays as it is. `v` are the groups so reached; with the engine IDLE the takes of the
queued ones follow (R58), as many as complete at their takes and the next. That they fall in the same step is the model's
reading, log entry 5, and that their COMMIT_DONE records stand behind the OVERRUN records, in the order of the takes, log
entries 9 and 10. FREEZE sets its line, and the timebase
stands still while FREEZE is asserted and freeze enable is on, and advances otherwise (R78). That an edge which repeats the
line's level is taken as the edge it names is the model's choice, log entry 31. -/
def Obligations.SyncAndFreezeLines : Prop :=
  ∀ s : State, Settled s → s.run = .running →
    (let frozen := s.timebase.freezeEnable = true ∧ s.timebase.freezeLine = true
     let qualifies := fun e : Edge =>
       (s.timebase.syncSelect = .rise ∧ e = .rise) ∨ (s.timebase.syncSelect = .fall ∧ e = .fall) ∨
         s.timebase.syncSelect = .both
     (∀ e, frozen ∨ ¬ qualifies e →
       exec (.syncEdge e) s = .next { s with timebase := { s.timebase with syncLine := e == .rise } }) ∧
     (∀ e, ¬ frozen → qualifies e →
       ∃ t, exec (.syncEdge e) s = .next t ∧
         t.timebase = { s.timebase with
           syncLine := e == .rise, cyclePosition := 0, cycleNumber := s.timebase.cycleNumber + 1 } ∧
         t.port = s.port ∧ (s.mode ≠ .active ∨ s.timebase.cyclePosition = 0 → t.groups = s.groups ∧ Reports s t []) ∧
         (s.mode = .active → s.timebase.cyclePosition ≠ 0 → ∃ (v : GroupNum → Group) (skips : List GroupNum),
           let sealAt := fun x : Group => x.trigger = .cycle ∧ x.cycleOffset.toNat = x.guardTicks.toNat
           let commitAt := fun x : Group => x.trigger = .cycle ∧ x.cycleOffset = 0
           let overrunAt := fun x : Group => x.state.busy = true ∧ x.returnState = .armed ∧ sealAt x
           (∀ g, let x := s.group g
             let sealed := { x with state := .sealed, sealTime := s.time, outgoing := x.filling, filling := [] }
             let queued := fun y : Group =>
               { y with state := .queued, epochInstant := s.time, nextInstant := none, returnState := .armed }
             (x.state = .armed → sealAt x → ¬ commitAt x → v g = sealed) ∧
             (x.state = .armed → sealAt x → commitAt x → v g = queued sealed) ∧
             (x.state = .sealed → commitAt x → v g = queued x) ∧
             (overrunAt x → v g = { x with overrunCount := min (x.overrunCount + 1) 65535 }) ∧
             ((x.state = .off ∨ x.state = .opened) ∨ (x.state = .armed ∧ ¬ sealAt x) ∨
                 (x.state = .sealed ∧ ¬ commitAt x) ∨ (x.state.busy = true ∧ ¬ overrunAt x) → v g = x)) ∧
           skips.Pairwise (· < ·) ∧ (∀ g, g ∈ skips ↔ overrunAt (s.group g)) ∧
           QueueFollows s t v s.time (skips.map (fun g => .overrun g s.time .busy 1))))) ∧
    (∃ u, exec .freezeBegin s = .next u ∧ u = { s with timebase := { s.timebase with freezeLine := true } } ∧
      (s.timebase.freezeEnable = true → exec .tick u = .next u) ∧
      (s.timebase.freezeEnable = false → ∃ v, exec .tick u = .next v ∧ v.time = s.time + 1)) ∧
    (∃ u v, exec .freezeEnd s = .next u ∧ u = { s with timebase := { s.timebase with freezeLine := false } } ∧
      exec .tick u = .next v ∧ v.time = s.time + 1)

/-! ## Windows -/

/-- WINDOW SET of window `i` with the contents `w`: STATE, PARAM and CONFLICT in the order of R96 to R98, and otherwise the
record takes every value at once and nothing else changes (R99); an undefined code gives PARAM after STATE. CONFLICT, for a
window enabled: a byte of the new range lies in another enabled window, or, while the ring is enabled, in the ring area, the
head word or the tail word, or it is the marker address of a group that is not OFF (R98). -/
def Obligations.WindowSetWritesTheRecord : Prop :=
  ∀ (s : State) (i : WindowNum), Settled s → LinkReady s →
    (let refusesMode :=
       s.mode = .quiescing ∨
         (s.mode = .active ∧ (s.windows.get i).enabled = true ∧ (s.windows.get i).kind = .stage ∧
           (s.group (s.windows.get i).group).state ≠ .off)
     (∀ w : Window,
       let badRange := w.base.toNat % 64 ≠ 0 ∨ w.size.toNat = 0 ∨ w.size.toNat % 64 ≠ 0 ∨ 67108864 < w.size.toNat ∨
         2 ^ 32 < w.base.toNat + w.size.toNat
       let holds := fun z : Nat => w.base.toNat ≤ z ∧ z < w.base.toNat + w.size.toNat
       let r := s.records
       let conflict := w.enabled = true ∧
         ((∃ j z, j ≠ i ∧ (s.windows.get j).enabled = true ∧ holds z ∧ (s.windows.get j).base.toNat ≤ z ∧
             z < (s.windows.get j).base.toNat + (s.windows.get j).size.toNat) ∨
           (r.enabled = true ∧ ∃ z, holds z ∧
             ((r.base.toNat ≤ z ∧ z < r.base.toNat + 32 * r.capacity) ∨
               (r.headAddr.toNat ≤ z ∧ z < r.headAddr.toNat + 4) ∨
               (r.tailAddr.toNat ≤ z ∧ z < r.tailAddr.toNat + 4))) ∨
           (∃ g m, (s.group g).state ≠ .off ∧ (s.group g).marker = some m ∧ holds m.toNat))
       let outcome := exec (.windowSet (.whole (numberByte i :: w.data))) s
       (refusesMode → outcome = .next (s.framed .state (s.writeSent 16))) ∧
       (¬ refusesMode → badRange → outcome = .next (s.framed .param (s.writeSent 16))) ∧
       (¬ refusesMode → ¬ badRange → conflict → outcome = .next (s.framed .conflict (s.writeSent 16))) ∧
       (¬ refusesMode → ¬ badRange → ¬ conflict →
         outcome = .next { s.framed .ok (s.writeSent 16) with windows := s.windows.set i w })) ∧
     (∀ (b1 b2 b11 b12 b13 b14 b15 : Byte) (base size : BitVec 32),
       (2 ≤ b1.toNat ∨ 2 ≤ b2.toNat ∨ 8 ≤ b11.toNat ∨ 2 ≤ b12.toNat ∨ 2 ≤ b13.toNat ∨ 3 ≤ b14.toNat ∨ 2 ≤ b15.toNat) →
       exec (.windowSet (.whole ([numberByte i, b1, b2] ++ beBytes 4 base.toNat ++ beBytes 4 size.toNat ++
           [b11, b12, b13, b14, b15]))) s =
         if refusesMode then .next (s.framed .state (s.writeSent 16))
         else .next (s.framed .param (s.writeSent 16)))) ∧
    (∀ (n : Byte) (ps : List Byte), 7 < n.toNat → ps.length = 15 →
      exec (.windowSet (.whole (n :: ps))) s = .next (s.framed .param (s.writeSent 16)))

/-! ## Groups -/

/-- A group number above 7 gives PARAM and no effect (R41). -/
def Obligations.GroupNumberAboveSevenIsRefused : Prop :=
  ∀ (s : State) (p : Nat × (FrameEvent → Instr)) (n : Byte) (ps : List Byte), p ∈ groupWriteCommands → Settled s →
    LinkReady s → 7 < n.toNat → ps.length + 1 = p.1 →
    exec (p.2 (.whole (n :: ps))) s = .next (s.framed .param (s.writeSent p.1))

/-- GROUP SET of group `g` with the configuration `c`, no write being held: its refusals in the order of R42 and R44, and
otherwise the configuration fields take the values; a group brought out of OFF starts anew (R43). An undefined code, of the
trigger, of marker present or of a report choice, gives PARAM after STATE, a write being held or not (R42 step 2). -/
def Obligations.GroupSetWritesTheConfiguration : Prop :=
  (∀ (s : State) (g : GroupNum) (b1 b14 b19 b20 : Byte) (period offset marker : BitVec 32) (guardTicks quota : BitVec 16),
    Settled s → LinkReady s → 4 ≤ b1.toNat ∨ 2 ≤ b14.toNat ∨ 2 ≤ b19.toNat ∨ 2 ≤ b20.toNat →
    exec (.groupSet (.whole ([numberByte g, b1] ++ beBytes 4 period.toNat ++ beBytes 4 offset.toNat ++
        beBytes 2 guardTicks.toNat ++ beBytes 2 quota.toNat ++ [b14] ++ beBytes 4 marker.toNat ++ [b19, b20]))) s =
      if (s.group g).state ≠ .off ∧ (s.group g).state ≠ .opened then .next (s.framed .state (s.writeSent 21))
      else .next (s.framed .param (s.writeSent 21))) ∧
  ∀ (s : State) (g : GroupNum) (c : GroupConfig), Settled s → LinkReady s →
    (∀ tk h r k, s.port ≠ .held tk h r k) → c.quota < 65536 →
    exec (.groupSet (.whole (numberByte g :: c.bytes))) s =
      let x := s.group g
      if x.state ≠ .off ∧ x.state ≠ .opened then .next (s.framed .state (s.writeSent 21))
      else if c.quota = 0 ∨ 256 < c.quota ∨ (x.state = .opened ∧ c.quota < x.occupancy) ∨
          (c.trigger = .periodic ∧ (c.period = 0 ∨ c.period.toNat ≤ c.guardTicks.toNat)) ∨
          c.marker.any (fun m => m.toNat % 4 != 0) = true then .next (s.framed .param (s.writeSent 21))
      else if c.marker.any (fun m =>
          s.windows.toList.any (fun w => w.enabled && inRange m w.base.toNat w.size.toNat) ||
            allGroups.any (fun h => h != g && (s.group h).state != .off && (s.group h).marker == some m) ||
            (s.records.enabled && (inRange m s.records.base.toNat (32 * s.records.capacity) ||
              m == s.records.headAddr || m == s.records.tailAddr))) = true then
        .next (s.framed .conflict (s.writeSent 21))
      else
        let y := { x with
          trigger := c.trigger, period := c.period, cycleOffset := c.cycleOffset, guardTicks := c.guardTicks
          quota := c.quota, marker := c.marker, reportCommits := c.reportCommits, reportLates := c.reportLates }
        .next { s.framed .ok (s.writeSent 21) with
          groups := s.groups.set g
            (if x.state = .opened then y
            else
              { y with
                state := .opened, epoch := 0, overrunCount := 0, lateCount := 0, faultStep := none, faultAddr := 0
                nextInstant := none, returnState := .opened, epochInstant := 0, sealTime := 0 }) }

/-- GROUP ARM of group `g` for an instant (R45), or for a cycle (R46): the refusals in their order; the group ARMED; and a
group whose seal point is already reached sealed at once. -/
def Obligations.GroupArmArmsTheGroup : Prop :=
  ∀ (s : State) (g : GroupNum) (i : Time), Settled s → LinkReady s →
    exec (.groupArm (.whole (numberByte g :: beBytes 6 i.toNat))) s =
      let x := s.group g
      let d := (i - s.time).toNat
      let armed := fun y => Host.Outcome.next ((s.framed .ok (s.writeSent 7)).setGroup g y)
      if x.trigger = .manual ∨ s.mode ≠ .active ∨ x.state ≠ .opened then .next (s.framed .state (s.writeSent 7))
      else if x.trigger = .cycle then
        if s.timebase.cycleLength ≤ x.cycleOffset.toNat ∨ x.cycleOffset.toNat < x.guardTicks.toNat then
          .next (s.framed .param (s.writeSent 7))
        else armed { x with state := .armed, nextInstant := none }
      else if d = 0 ∨ 2 ^ 47 ≤ d then .next (s.framed .param (s.writeSent 7))
      else if x.guardTicks.toNat < d then armed { x with state := .armed, nextInstant := some i }
      else
        armed { x with
          state := .sealed, nextInstant := some i, sealTime := s.time, outgoing := x.filling, filling := [] }

/-- GROUP DISARM by the table of R47, outside QUIESCING (where no group is ARMED); in QUIESCING an OPEN group gives OK and
any other state than ARMED gives STATE (R168). GROUP RETRY: STATE unless the group is STALLED; with the engine busy the group
is QUEUED at the tail and keeps its fault step, fault address and progress; with the engine IDLE it is taken at once, and the
step that failed is asked for again, or the abandoned END of a pending abandon (R58, R66, R68). That the take falls in the
same step is the model's reading, log entry 5. -/
def Obligations.GroupDisarmAndRetryActByState : Prop :=
  ∀ (s : State) (g : GroupNum), Settled s → LinkReady s →
    ((s.mode = .quiescing → (s.group g).state ≠ .armed) →
      exec (.groupDisarm (.whole [numberByte g])) s =
        if (s.group g).state = .armed then
          .next ((s.framed .ok (s.writeSent 1)).setGroup g { s.group g with state := .opened, nextInstant := none })
        else if (s.group g).state = .opened then .next (s.framed .ok (s.writeSent 1))
        else .next (s.framed .state (s.writeSent 1))) ∧
    ((s.group g).state ≠ .stalled →
      exec (.groupRetry (.whole [numberByte g])) s = .next (s.framed .state (s.writeSent 1))) ∧
    ((s.group g).state = .stalled → s.engine ≠ none →
      exec (.groupRetry (.whole [numberByte g])) s =
        .next { s.framed .ok (s.writeSent 1) with
          groups := s.groups.set g { s.group g with state := .queued }, commitQueue := s.commitQueue ++ [g] }) ∧
    (let x := s.group g
     let retried := fun (kind : DrainKind) (step : Step) (q : Request) =>
       ∃ t, exec (.groupRetry (.whole [numberByte g])) s = .next t ∧ t.serves g kind step q ∧ t.commitQueue = [] ∧
         t.group g = { x with state := .draining } ∧ (∀ h, h ≠ g → t.group h = s.group h) ∧
         t.link = (s.framed .ok (s.writeSent 1)).link
     x.state = .stalled → s.engine = none → x.progress.begun = true →
     (∀ m, x.marker = some m → x.progress.abandonPending = true →
       retried .abandonEnd .finish (markerWrite m (2 ^ 31 + (2 * (x.epoch - 1).toNat + 2) % 2 ^ 31))) ∧
     (∀ m, x.marker = some m → x.progress.abandonPending = false → x.faultStep = some .start →
       retried .epoch .start (markerWrite m ((2 * x.epoch.toNat + 1) % 2 ^ 31))) ∧
     (∀ m, x.marker = some m → x.progress.abandonPending = false → x.faultStep = some .finish →
       retried .epoch .finish (markerWrite m ((2 * x.epoch.toNat + 2) % 2 ^ 31))) ∧
     (∀ e tail, x.outgoing = e :: tail → x.progress.abandonPending = false → x.faultStep = some .entry →
       retried .epoch .entry e.write))

/-- GROUP COMMIT NOW seals and queues the group at once; with the engine busy nothing else changes, with the engine IDLE
a group with a marker is taken and its START marker is asked for, one without a marker is taken and its first entry is asked
for (R48, R58, R59), and one with neither a marker nor an entry completes at the take: E increases, a COMMIT_DONE record of 0
entries is handed over where asked for, and the group takes its return state (R40, R62, R64). That the take falls in the same
step is the model's reading, log entry 5. -/
def Obligations.GroupCommitNowQueuesTheGroup : Prop :=
  ∀ (s : State) (g : GroupNum), Settled s → LinkReady s →
    (s.mode ≠ .active ∨ ((s.group g).state ≠ .opened ∧ (s.group g).state ≠ .armed) →
      exec (.groupCommitNow (.whole [numberByte g])) s = .next (s.framed .state (s.writeSent 1))) ∧
    (s.mode = .active → (s.group g).state = .opened ∨ (s.group g).state = .armed →
      let y := { s.group g with
        state := .queued, outgoing := (s.group g).filling, filling := [], sealTime := s.time, epochInstant := s.time
        returnState := if (s.group g).state = .armed then .armed else .opened }
      (s.engine ≠ none →
        exec (.groupCommitNow (.whole [numberByte g])) s =
          .next { s.framed .ok (s.writeSent 1) with
            groups := s.groups.set g y, commitQueue := s.commitQueue ++ [g] }) ∧
      (s.engine = none → (s.group g).progress.begun = false → (s.group g).progress.abandonPending = false →
        ∃ t, exec (.groupCommitNow (.whole [numberByte g])) s = .next t ∧ t.commitQueue = [] ∧
          (∀ h, h ≠ g → t.group h = s.group h) ∧
          (∀ m, y.marker = some m →
            t.serves g .epoch .start (markerWrite m ((2 * y.epoch.toNat + 1) % 2 ^ 31)) ∧ t.group g = y.takenAt s.time) ∧
          (∀ e tail, y.outgoing = e :: tail → y.marker = none →
            t.serves g .epoch .entry e.write ∧ t.group g = y.takenAt s.time) ∧
          (y.marker = none → y.outgoing = [] → t.engine = none ∧
            ∃ k, Returned s.time (y.takenAt s.time).epochDone (t.group g) k ∧
              Reports s t ((y.takenAt s.time).doneReport g 0 s.time ++ jumpReport g s.time k))))

/-- GROUP DISCARD with no write held releases every filling entry and changes nothing else; STATE for a group that is OFF
(R9, R50; in QUIESCING an OPEN group has an empty filling list). GROUP OFF: STATE unless the group is OPEN or ARMED with empty
lists; otherwise the group is OFF with its next instant absent, and a write held for it passes to memory (R22, R52). -/
def Obligations.GroupDiscardAndOff : Prop :=
  (∀ (s : State) (g : GroupNum), Settled s → LinkReady s → (∀ tk h r k, s.port ≠ .held tk h r k) →
     (s.mode = .quiescing → (s.group g).state = .opened → (s.group g).filling = []) →
     exec (.groupDiscard (.whole [numberByte g])) s =
       if (s.group g).state = .off then .next (s.framed .state (s.writeSent 1))
       else .next ((s.framed .ok (s.writeSent 1)).setGroup g { s.group g with filling := [] })) ∧
  (∀ (s : State) (g : GroupNum), Settled s → LinkReady s →
     (¬ (((s.group g).state = .opened ∨ (s.group g).state = .armed) ∧ (s.group g).occupancy = 0) →
       exec (.groupOff (.whole [numberByte g])) s = .next (s.framed .state (s.writeSent 1))) ∧
     (((s.group g).state = .opened ∨ (s.group g).state = .armed) → (s.group g).occupancy = 0 →
       let y := { s.group g with state := .off, nextInstant := none }
       (s.port.heldFor g = false → s.mode ≠ .quiescing →
         exec (.groupOff (.whole [numberByte g])) s = .next ((s.framed .ok (s.writeSent 1)).setGroup g y)) ∧
       (∀ tk r k, s.port = .held tk g r k →
         ∃ t, exec (.groupOff (.whole [numberByte g])) s = .next t ∧ t.group g = y ∧
           t.port = .passing { tk with disposition := .pass } ∧ t.asks .initiator (requestOf tk.tx) ∧
           t.link.lastResult = .ok)))

/-- GROUP ABANDON, no write being held: STATE unless STALLED. An abandon already pending queues the group again; otherwise the
outgoing list is dropped, E increases, an ABANDONED record is handed over, and a group with a marker is queued for its
abandoned END (R67, R68), which an IDLE engine takes at once (R58, R65). A group without a marker completes: it takes its
return state in ACTIVE, with the OVERRUN record of a seal point passed (R40), and the state of the flush in QUIESCING, the
engine being busy (R169). That the take falls in the same step is the model's reading, log entry 5. -/
def Obligations.GroupAbandonDropsTheEpoch : Prop :=
  ∀ (s : State) (g : GroupNum), Settled s → LinkReady s → (∀ tk h r k, s.port ≠ .held tk h r k) →
    (let x := s.group g
     let outcome := exec (.groupAbandon (.whole [numberByte g])) s
     let served := fun (t : State) (m : Addr) (epoch : BitVec 32) => t.commitQueue = [] ∧
       t.serves g .abandonEnd .finish (markerWrite m (2 ^ 31 + (2 * (epoch - 1).toNat + 2) % 2 ^ 31))
     (x.state ≠ .stalled → outcome = .next (s.framed .state (s.writeSent 1))) ∧
     (x.state = .stalled → x.progress.abandonPending = true →
       (s.engine ≠ none →
         outcome = .next { s.framed .ok (s.writeSent 1) with
           groups := s.groups.set g { x with state := .queued }, commitQueue := s.commitQueue ++ [g] }) ∧
       (∀ m, x.marker = some m → s.engine = none → x.progress.begun = true →
         ∃ t, outcome = .next t ∧ served t m x.epoch ∧ t.group g = { x with state := .draining } ∧
           (∀ h, h ≠ g → t.group h = s.group h) ∧ Reports s t [])) ∧
     (x.state = .stalled → x.progress.abandonPending = false →
       ∃ t, outcome = .next t ∧ t.link = (s.framed .ok (s.writeSent 1)).link ∧ (∀ h, h ≠ g → t.group h = s.group h) ∧
         (let record : RecordBody := .abandoned g s.time (x.epoch + 1) x.outgoing.length
          let y := { x with
            outgoing := [], epoch := x.epoch + 1
            progress := { x.progress with entriesWritten := 0, begun := false, abandonPending := true } }
          (x.marker ≠ none → s.engine ≠ none →
            t.group g = { y with state := .queued } ∧ t.commitQueue = s.commitQueue ++ [g] ∧ Reports s t [record]) ∧
          (∀ m, x.marker = some m → s.engine = none →
            served t m (x.epoch + 1) ∧ t.group g = y.takenAt s.time ∧ Reports s t [record]) ∧
          (x.marker = none → s.mode = .active ∨ (s.mode ≠ .quiescing ∧ x.returnState = .opened) →
            t.commitQueue = s.commitQueue ∧ t.engine.map (·.group) = s.engine.map (·.group) ∧
            ∃ k, Returned s.time y.epochClosed (t.group g) k ∧ Reports s t ([record] ++ jumpReport g s.time k)) ∧
          (x.marker = none → s.mode = .quiescing → s.engine ≠ none → Reports s t [record] ∧
            (x.filling = [] → t.commitQueue = s.commitQueue ∧
              t.group g = { y.epochClosed with state := .opened, nextInstant := none, returnState := .opened }) ∧
            (x.filling ≠ [] → t.commitQueue = s.commitQueue ++ [g] ∧
              t.group g = y.epochClosed.flushQueued s.time)))))

/-! ## The ring -/

/-- RING SET with enable yes: STATE, PARAM and CONFLICT in the order of R145; otherwise the parameters are taken, the
indices and the urgent mark start anew, the record sequence stays, and the initial head word is asked for, at once by an IDLE
ring writer, or behind the word of a ring disabled earlier that memory has still to answer (R146, R148). CONFLICT: a byte of
the ring area, the head word or the tail word lies in an enabled window, or the marker address of a group that is not OFF lies
in the ring area or is the head word or the tail word (R145 step 3). -/
def Obligations.RingSetEnablesTheRing : Prop :=
  ∀ (s : State) (p : RingParams), Settled s → LinkReady s → p.base < 2 ^ 32 → p.headAddr < 2 ^ 32 →
    p.tailAddr < 2 ^ 32 → p.capacity < 65536 → p.threshold < 65536 →
    (let inArea := fun z : Nat => p.base ≤ z ∧ z < p.base + 32 * p.capacity
     let bad := p.base % 32 ≠ 0 ∨ p.capacity ∉ [16, 32, 64, 128, 256, 512, 1024, 2048, 4096] ∨
       2 ^ 32 < p.base + 32 * p.capacity ∨ p.headAddr % 4 ≠ 0 ∨ p.tailAddr % 4 ≠ 0 ∨ p.headAddr = p.tailAddr ∨
       inArea p.headAddr ∨ inArea p.tailAddr ∨ p.capacity ≤ p.threshold
     let ringByte := fun z : Nat => inArea z ∨ (p.headAddr ≤ z ∧ z < p.headAddr + 4) ∨
       (p.tailAddr ≤ z ∧ z < p.tailAddr + 4)
     let conflict :=
       (∃ (w : WindowNum) (z : Nat), (s.windows.get w).enabled = true ∧ ringByte z ∧
         (s.windows.get w).base.toNat ≤ z ∧ z < (s.windows.get w).base.toNat + (s.windows.get w).size.toNat) ∨
       (∃ (g : GroupNum) (m : Addr), (s.group g).state ≠ .off ∧ (s.group g).marker = some m ∧
         (inArea m.toNat ∨ m.toNat = p.headAddr ∨ m.toNat = p.tailAddr))
     let outcome := exec (.ringSet (.whole p.bytes)) s
     let enabled := { s.records with
       enabled := true, base := BitVec.ofNat 32 p.base, capacity := p.capacity
       headAddr := BitVec.ofNat 32 p.headAddr, tailAddr := BitVec.ofNat 32 p.tailAddr, threshold := p.threshold
       urgencyMask := p.urgencyMask, producer := 0, generation := 0, consumer := 0, urgentMark := none }
     (s.records.enabled = true → outcome = .next (s.framed .state (s.writeSent 18))) ∧
     (s.records.enabled = false → bad → outcome = .next (s.framed .param (s.writeSent 18))) ∧
     (s.records.enabled = false → ¬ bad → conflict → outcome = .next (s.framed .conflict (s.writeSent 18))) ∧
     (s.records.enabled = false → ¬ bad → ¬ conflict → s.records.writer = none →
       ∃ t st, outcome = .next t ∧ t.records = { enabled with writer := some (.initialHead, st) } ∧
         t.asks .record { addr := BitVec.ofNat 32 p.headAddr, dir := .write, lanes := 0xF#4, data := 0 } ∧
         t.link = (s.framed .ok (s.writeSent 18)).link ∧ t.groups = s.groups ∧ t.windows = s.windows) ∧
     (∀ isHead again st, s.records.writer = some (.disowned isHead again, st) → s.records.enabled = false → ¬ bad →
       ¬ conflict →
       ∃ t, outcome = .next t ∧ t.records = { enabled with writer := some (.disowned isHead true, st) } ∧
         t.arbiter = s.arbiter ∧ t.link = (s.framed .ok (s.writeSent 18)).link ∧ t.groups = s.groups ∧
         t.windows = s.windows))

/-- RING SET with enable no is always accepted: the queue, the lost count and the urgent mark are dropped, the rest of the
record unit is kept, a request is withdrawn and a word outstanding is disowned; an enable code that is neither gives PARAM
(R145, R148). -/
def Obligations.RingSetDisablesTheRing : Prop :=
  ∀ (s : State) (ps : List Byte), Settled s → LinkReady s → ps.length = 17 →
    (let off := { s.records with enabled := false, queue := [], lostCount := 0, urgentMark := none }
     let irq := s.link.flags.tail || s.link.flags.stall || s.link.flags.ringerr
     (s.records.writer = none →
       exec (.ringSet (.whole (0 :: ps))) s =
         .next { s.framed .ok (s.writeSent 18) with records := off, irq := irq }) ∧
     (∀ task, s.records.writer = some (task, .requested) →
       exec (.ringSet (.whole (0 :: ps))) s =
         .next { s.framed .ok (s.writeSent 18) with
           records := { off with writer := none }, irq := irq
           arbiter := { s.arbiter with recordPlace := none } }) ∧
     (∀ task, s.records.writer = some (task, .outstanding) →
       ∃ head, exec (.ringSet (.whole (0 :: ps))) s =
         .next { s.framed .ok (s.writeSent 18) with
           records := { off with writer := some (.disowned head false, .outstanding) }, irq := irq })) ∧
    (∀ e : Byte, 2 ≤ e.toNat →
      exec (.ringSet (.whole (e :: ps))) s = .next (s.framed .param (s.writeSent 18)))

/-! ## The initiator port -/

/-- A transaction presented while the port is PASSING or HELD, or in RESETTING, is not taken (R101); one that passes is
requested unchanged, is granted at once where the arbiter is IDLE, and makes the port PASSING; nothing else changes
(R102, R103, R121). One that matches a WATCH window passes in this way unless the mode is ACTIVE and the window's watch on
selects its direction (R109). That an untaken transaction is not stored is the model's choice, log entry 12, and that the port
holds no matched window for one that passes in BYPASS is its choice, log entry 32. -/
def Obligations.PassedTransactionIsRequestedUnchanged : Prop :=
  ∀ (s : State) (t : Transaction), Settled s → s.run = .running → t.wf = true →
    (s.port ≠ .free ∨ s.mode = .resetting → exec (.upstreamTransactionTake t) s = .next s) ∧
    (s.port = .free → s.mode ≠ .resetting →
      ¬ (s.records.enabled = true ∧ t.dir = .write ∧ t.addr = s.records.tailAddr) →
      (s.mode = .bypass ∨ s.matchWindow t.addr = none ∨
        ∃ i, s.matchWindow t.addr = some i ∧
          let w := s.windows.get i
          (w.kind = .watch ∧ ¬ (s.mode = .active ∧
              (w.watchOn = .both ∨ (w.watchOn = .writes ∧ t.dir = .write) ∨ (w.watchOn = .reads ∧ t.dir = .read)))) ∨
            (w.kind = .stage ∧ (s.group w.group).state = .off) ∨
            (w.kind = .stage ∧ t.dir = .read ∧ w.readView = .memory)) →
      exec (.upstreamTransactionTake t) s =
        .next { s with
          reply := none
          port := .passing { tx := t, takeTime := s.time, disposition := .pass
                             window := if s.mode = .bypass then none else s.matchWindow t.addr }
          arbiter :=
            if s.arbiter.outstanding = none then
              { s.arbiter with outstanding := some (.initiator, ⟨t.addr, t.dir, t.lanes, t.data⟩) }
            else { s.arbiter with initiatorPlace := some ⟨t.addr, t.dir, t.lanes, t.data⟩ } })

/-- A write to a STAGE window of a group in service in ACTIVE is merged into the filling entry of its word, whatever the
room; without one it is a new entry at the tail where there is room; either is answered OK at once and, outside SEALED,
changes nothing else (R11, R12, R105). A placement in SEALED is a late write: it is counted, and with report lates yes a LATE
record with the instant it missed is handed over (R15, R35). -/
def Obligations.StagedWriteIsMergedOrAppended : Prop :=
  ∀ (s : State) (t : Transaction) (i : WindowNum), Settled s → s.run = .running → t.wf = true → s.port = .free →
    s.mode = .active → s.isTailWrite t = false → s.matchWindow t.addr = some i → (s.windows.get i).kind = .stage →
    t.dir = .write → t.lanes ≠ 0 →
    (let g := (s.windows.get i).group
     let x := s.group g
     let merged := x.filling.map (fun e =>
       if e.addr = t.addr then { e with data := overlay e.data t.data t.lanes, lanes := e.lanes ||| t.lanes } else e)
     let appended := x.filling ++ [{ addr := t.addr, data := t.data, lanes := t.lanes }]
     let hit := ∃ e ∈ x.filling, e.addr = t.addr
     let room := x.filling.length + x.outgoing.length < x.quota ∧ s.poolUsed < 256
     (x.state ≠ .off → x.state ≠ .sealed → hit →
       exec (.upstreamTransactionTake t) s =
         .next { s with reply := some .okWrite, groups := s.groups.set g { x with filling := merged } }) ∧
     (x.state ≠ .off → x.state ≠ .sealed → ¬ hit → room →
       exec (.upstreamTransactionTake t) s =
         .next { s with reply := some .okWrite, groups := s.groups.set g { x with filling := appended } }) ∧
     (x.state = .sealed → hit ∨ room →
       ∃ u, exec (.upstreamTransactionTake t) s = .next u ∧ u.reply = some .okWrite ∧ u.port = .free ∧
         (hit → u.group g = { x with filling := merged, lateCount := min (x.lateCount + 1) 65535 }) ∧
         (¬ hit → u.group g = { x with filling := appended, lateCount := min (x.lateCount + 1) 65535 }) ∧
         (∀ h, h ≠ g → u.group h = s.group h) ∧
         (x.reportLates = false → u.records = s.records) ∧
         (∀ n, x.reportLates = true → x.trigger = .periodic ∨ x.trigger = .oneshot → x.nextInstant = some n →
           u.records.queue = (s.records.handOver (.late g s.time t.addr t.lanes n)).queue) ∧
         (x.reportLates = true → x.trigger = .cycle →
           u.records.queue = (s.records.handOver (.late g s.time t.addr t.lanes x.sealTime)).queue)))

/-- A write that finds its group full in a window with full policy REFUSE: the initiator is answered ERROR, a REFUSED record
with the cause and the write's address and lane set is produced, the port is FREE, and neither the store nor memory is
touched; a write that can merge is never refused (R13, R16, R107, R142). -/
def Obligations.FullGroupRefusesTheWrite : Prop :=
  ∀ (s : State) (t : Transaction) (i : WindowNum), Settled s → s.run = .running → t.wf = true → s.port = .free →
    s.mode = .active → s.isTailWrite t = false → s.matchWindow t.addr = some i → (s.windows.get i).kind = .stage →
    t.dir = .write → t.lanes ≠ 0 → (s.windows.get i).fullPolicy = .refuse →
    (let g := (s.windows.get i).group
     let x := s.group g
     let cause : RefusedCause := if x.quota ≤ x.filling.length + x.outgoing.length then .quota else .pool
     let record : RecordBody := .refused g s.time cause t.addr t.lanes
     x.state ≠ .off →
     ((∀ e ∈ x.filling, e.addr ≠ t.addr) →
       (x.quota ≤ x.filling.length + x.outgoing.length ∨ 256 ≤ s.poolUsed) →
       ∃ u, exec (.upstreamTransactionTake t) s = .next u ∧ u.reply = some .error ∧ u.port = .free ∧
         u.groups = s.groups ∧ u.arbiter.initiatorPlace = s.arbiter.initiatorPlace ∧
         (u.arbiter.outstanding = s.arbiter.outstanding ∨ u.arbiter.owner = some .record) ∧
         u.records.queue =
           (if s.records.enabled = true ∧ s.records.queue.length < 16 then
             s.records.queue ++ [{ body := record, urgent := s.records.urgencyMask.getLsbD 5 }]
           else s.records.queue) ∧
         u.records.lostCount =
           (if s.records.enabled = true ∧ 16 ≤ s.records.queue.length then min (s.records.lostCount + 1) 65535
           else s.records.lostCount)) ∧
     ((∃ e ∈ x.filling, e.addr = t.addr) →
       ∃ u, exec (.upstreamTransactionTake t) s = .next u ∧ u.reply = some .okWrite))

/-- A write that finds its group full in a window with full policy WAIT is held with reason ROOM; in QUIESCING every
non-empty write to a STAGE window of a group in service is held with reason MODE; the hold count starts at 0 and nothing else
changes (R17, R106, R111). A write with an empty lane set is answered OK with no other effect (R110). -/
def Obligations.HeldAndEmptyWrites : Prop :=
  ∀ (s : State) (t : Transaction) (i : WindowNum), Settled s → s.run = .running → t.wf = true → s.port = .free →
    s.isTailWrite t = false → s.matchWindow t.addr = some i → (s.windows.get i).kind = .stage → t.dir = .write →
    (let g := (s.windows.get i).group
     let x := s.group g
     let held := fun reason => Port.held { tx := t, takeTime := s.time, disposition := .hold, window := some i } g reason 0
     x.state ≠ .off →
     (t.lanes = 0 → s.mode = .active ∨ s.mode = .quiescing →
       exec (.upstreamTransactionTake t) s = .next { s with reply := some .okWrite }) ∧
     (t.lanes ≠ 0 → s.mode = .quiescing →
       exec (.upstreamTransactionTake t) s = .next { s with reply := none, port := held .mode }) ∧
     (t.lanes ≠ 0 → s.mode = .active → (s.windows.get i).fullPolicy = .wait → (∀ e ∈ x.filling, e.addr ≠ t.addr) →
       (x.quota ≤ x.filling.length + x.outgoing.length ∨ 256 ≤ s.poolUsed) →
       exec (.upstreamTransactionTake t) s = .next { s with reply := none, port := held .room }))

/-- A read of a STAGED-view window takes byte `k` from the group's filling entry of the word where its lane set holds lane
`k`, else from the outgoing entry where its lane set does (R25): with all four lanes staged it is answered at once with these
bytes and makes no transaction; otherwise, an entry in one list, in both or in none, it is asked of memory (R25, R27, R108),
and the store is unchanged. -/
def Obligations.StagedReadIsAnsweredOrOverlaid : Prop :=
  ∀ (s : State) (t : Transaction) (i : WindowNum), Settled s → s.run = .running → t.wf = true →
    s.port = .free → s.mode = .active ∨ s.mode = .quiescing → s.matchWindow t.addr = some i →
    (s.windows.get i).kind = .stage → t.dir = .read → (s.windows.get i).readView = .staged →
    (let g := (s.windows.get i).group
     let staged := fun (list : List Entry) (k : Nat) =>
       (list.find? (fun e => e.addr == t.addr)).bind (fun e =>
         if e.lanes.getLsbD k then some (e.data.extractLsb' (8 * k) 8) else none)
     let newest := fun k : Nat => (staged (s.group g).filling k).or (staged (s.group g).outgoing k)
     (s.group g).state ≠ .off →
     ((∀ k < 4, newest k ≠ none) →
       ∃ data, exec (.upstreamTransactionTake t) s = .next { s with reply := some (.okRead data) } ∧
         ∀ k < 4, newest k = some (data.extractLsb' (8 * k) 8)) ∧
     ((∃ k < 4, newest k = none) →
       ∃ u, exec (.upstreamTransactionTake t) s = .next u ∧ u.groups = s.groups ∧ u.reply = none ∧
         u.port = .passing { tx := t, takeTime := s.time, disposition := .overlay g, window := some i } ∧
         u.asks .initiator ⟨t.addr, .read, t.lanes, t.data⟩))

/-- A write to the tail word of an enabled ring is snooped at its take and passes in every mode: a valid update moves C and
clears an urgent mark among the slots consumed; any other sets TAIL and increases the change count (R104, R154, R155, R158). -/
def Obligations.TailWriteIsSnooped : Prop :=
  ∀ (s : State) (t : Transaction), Settled s → s.run = .running → t.wf = true → s.port = .free → s.mode ≠ .resetting →
    s.records.enabled = true → t.dir = .write → t.addr = s.records.tailAddr →
    ∃ u, exec (.upstreamTransactionTake t) s = .next u ∧
      u.port = .passing { tx := t, takeTime := s.time, disposition := .tailSnoop, window := none } ∧
      u.asks .initiator ⟨t.addr, .write, t.lanes, t.data⟩ ∧ u.groups = s.groups ∧
      (let r := s.records
       let v := t.data.toNat % 65536
       let valid := t.lanes = 0xF#4 ∧ v < r.capacity ∧
         (v + r.capacity - r.consumer % r.capacity) % r.capacity ≤ r.unconsumed
       (valid → u.records.consumer = v ∧ u.link = s.link ∧
         u.records.urgentMark = r.urgentMark.filter (fun m =>
           decide ((v + r.capacity - r.consumer % r.capacity) % r.capacity ≤
             (m + r.capacity - r.consumer % r.capacity) % r.capacity))) ∧
       (¬ valid → u.records = s.records ∧
         u.link = { s.link with flags := { s.link.flags with tail := true }, changeCount := s.link.changeCount + 1 } ∧
         u.irq = true))

/-- In ACTIVE an access that a WATCH window selects (WRITES a write, READS a read, BOTH either) opens a watch context at its
take and passes as a pass-through does;
grants ahead starts at 1 on a BUSY arbiter and at 0 on an IDLE one (R109, R132, R133, R134). -/
def Obligations.WatchedAccessOpensAContext : Prop :=
  ∀ (s : State) (t : Transaction) (i : WindowNum), Settled s → s.run = .running → t.wf = true → s.port = .free →
    s.mode = .active → s.isTailWrite t = false → s.matchWindow t.addr = some i → (s.windows.get i).kind = .watch →
    ((s.windows.get i).watchOn = .both ∨ ((s.windows.get i).watchOn = .writes ∧ t.dir = .write) ∨
      ((s.windows.get i).watchOn = .reads ∧ t.dir = .read)) →
    exec (.upstreamTransactionTake t) s =
      .next { s with
        reply := none
        port := .passing { tx := t, takeTime := s.time, disposition := .watch, window := some i }
        watch := some {
          window := i, takeTime := s.time, addr := t.addr, dir := t.dir, lanes := t.lanes
          capture := (s.windows.get i).watchData
          writeData := if (s.windows.get i).watchData = true ∧ t.dir = .write then overlay 0 t.data t.lanes else 0
          grantsAhead := if s.arbiter.outstanding = none then 0 else 1 }
        arbiter :=
          if s.arbiter.outstanding = none then
            { s.arbiter with outstanding := some (.initiator, ⟨t.addr, t.dir, t.lanes, t.data⟩) }
          else { s.arbiter with initiatorPlace := some ⟨t.addr, t.dir, t.lanes, t.data⟩ } }

/-- The write held with reason ROOM is placed at the tail of its group's filling list as soon as there is room in
ACTIVE, and answered OK (R20); placed while its group is SEALED it is a late write, counted, and with report lates yes
reported with the instant it missed (R15, R35). A held write whose expiry is due is answered ERROR, the port becomes FREE,
the store is unchanged, and a REFUSED record of cause TIMEOUT is handed over (R19). Where it cannot be placed, or no expiry
is due, the rows change nothing. The mark of a due expiry, and that a row whose event cannot occur changes nothing, are the
model's, log entries 6 and 11. -/
def Obligations.HeldWriteIsPlacedOrExpires : Prop :=
  ∀ s : State, Settled s → s.run = .running →
    (s.canPlaceHeld = false → exec .heldWritePlacement s = .next s) ∧
    (∀ tk g k, s.port = .held tk g .room k → s.mode = .active → s.poolUsed < 256 →
      (s.group g).filling.length + (s.group g).outgoing.length < (s.group g).quota →
      let x := s.group g
      let placed := { x with
        filling := x.filling ++ [{ addr := tk.tx.addr, data := tk.tx.data, lanes := tk.tx.lanes }] }
      (x.state ≠ .sealed →
        exec .heldWritePlacement s =
          .next { s with port := .free, reply := some .okWrite, groups := s.groups.set g placed }) ∧
      (x.state = .sealed →
        ∃ t, exec .heldWritePlacement s = .next t ∧ t.port = .free ∧ t.reply = some .okWrite ∧
          t.group g = { placed with lateCount := min (x.lateCount + 1) 65535 } ∧ (∀ h, h ≠ g → t.group h = s.group h) ∧
          (x.reportLates = false → Reports s t []) ∧
          (∀ n, x.nextInstant = some n → x.reportLates = true → x.trigger = .oneshot ∨ x.trigger = .periodic →
            Reports s t [.late g s.time tk.tx.addr tk.tx.lanes n]) ∧
          (x.reportLates = true → x.trigger = .cycle →
            Reports s t [.late g s.time tk.tx.addr tk.tx.lanes x.sealTime]))) ∧
    (s.due.hold = false → exec .holdExpiry s = .next s) ∧
    (∀ tk g r k, s.port = .held tk g r k → s.due.hold = true →
      ∃ t, exec .holdExpiry s = .next t ∧ t.port = .free ∧ t.reply = some .error ∧ t.groups = s.groups ∧
        Reports s t [.refused g s.time .timeout tk.tx.addr tk.tx.lanes])

/-- A write held with reason ROOM is placed in the happening that makes room, and answered OK; in a SEALED group it is a late
write (R15, R35). The happenings: the first release of a GROUP DISCARD of its own group, after which the entries held at the
command alone are released (R4, R9, R20), or of another group; an accepted GROUP SET that raises the quota (R43); the release
of a drained entry of any group, its own included, as in the worked example of 1.9 (R8), the last ENTRY of a group without a
marker among them, whose epoch completes with an empty commit queue (R62); and the first release of a GROUP ABANDON of any
group, with a marker, the drain engine being busy, or without one, whose epoch completes (R8, R21, R40, R67). The LATE record
stands where the write is placed, so before the COMMIT_DONE or the ABANDONED record of the same happening, save where an
OVERRUN record of a lower group number follows in it, behind which it then stands (R142). That order of the records of one
happening is the model's reading, log entry 10. -/
def Obligations.ReleasesPlaceTheHeldWrite : Prop :=
  ∀ (s : State) (tk : Taken) (g : GroupNum) (k : Nat), s.port = .held tk g .room k → Settled s → LinkReady s →
    s.mode = .active → s.poolUsed ≤ 256 →
    (let x := s.group g
     let entry : Entry := { addr := tk.tx.addr, data := tk.tx.data, lanes := tk.tx.lanes }
     let placed := { x with
       filling := x.filling ++ [entry]
       lateCount := if x.state = .sealed then min (x.lateCount + 1) 65535 else x.lateCount }
     let late : List RecordBody :=
       if x.state = .sealed ∧ x.reportLates = true then
         [.late g s.time tk.tx.addr tk.tx.lanes
           (match x.trigger with
            | .oneshot | .periodic => x.nextInstant.getD x.sealTime
            | .cycle | .manual => x.sealTime)]
       else []
     let answered := fun (t : State) => t.port = .free ∧ t.reply = some .okWrite
     (∀ e rest, x.filling = e :: rest → x.state ≠ .off → x.occupancy ≤ x.quota →
       ∃ t, exec (.groupDiscard (.whole [numberByte g])) s = .next t ∧ answered t ∧
         t.group g = { placed with filling := [entry] } ∧ (∀ h, h ≠ g → t.group h = s.group h) ∧ Reports s t late ∧
         t.link = (s.framed .ok (s.writeSent 1)).link) ∧
     (∀ e rest, x.filling = e :: rest → x.state ≠ .off → x.state ≠ .sealed → x.occupancy ≤ x.quota →
       exec (.groupDiscard (.whole [numberByte g])) s =
         .next { s.framed .ok (s.writeSent 1) with
           port := .free, reply := some .okWrite, groups := s.groups.set g { x with filling := [entry] } }) ∧
     (∀ h : GroupNum, h ≠ g → (s.group h).state ≠ .off → (s.group h).filling ≠ [] → x.occupancy < x.quota →
       ∃ t, exec (.groupDiscard (.whole [numberByte h])) s = .next t ∧ answered t ∧ t.group g = placed ∧
         t.group h = { s.group h with filling := [] } ∧ (∀ i, i ≠ g → i ≠ h → t.group i = s.group i) ∧
         Reports s t late) ∧
     (∀ c : GroupConfig, x.state = .opened → c.trigger ≠ .periodic → c.marker = none → x.occupancy < c.quota →
       c.quota ≤ 256 → s.poolUsed < 256 →
       exec (.groupSet (.whole (numberByte g :: c.bytes))) s =
         .next { s.framed .ok (s.writeSent 21) with
           port := .free, reply := some .okWrite
           groups := s.groups.set g { x with
             trigger := c.trigger, period := c.period, cycleOffset := c.cycleOffset, guardTicks := c.guardTicks
             quota := c.quota, marker := none, reportCommits := c.reportCommits, reportLates := c.reportLates
             filling := x.filling ++ [entry] } }) ∧
     (∀ c, s.engine = some c → c.kind = .epoch → c.step = .entry → s.arbiter.owner = some .drain →
       ∀ d tail, (s.group c.group).outgoing = d :: tail →
       let y := s.group c.group
       let written := fun y : Group => { y with
         outgoing := tail, progress := { y.progress with entriesWritten := y.progress.entriesWritten + 1 } }
       (tail ≠ [] ∨ y.marker ≠ none →
         (c.group ≠ g → x.occupancy < x.quota →
           ∃ t, exec (.drainStepResponse true) s = .next t ∧ answered t ∧ t.group g = placed ∧
             t.group c.group = written y ∧ (∀ h, h ≠ g → h ≠ c.group → t.group h = s.group h) ∧ Reports s t late) ∧
         (c.group = g → x.occupancy ≤ x.quota →
           ∃ t, exec (.drainStepResponse true) s = .next t ∧ answered t ∧ t.group g = written placed ∧
             (∀ h, h ≠ g → t.group h = s.group h) ∧ Reports s t late)) ∧
       (tail = [] → y.marker = none → s.commitQueue = [] →
         let done := y.doneReport c.group (y.progress.entriesWritten + 1) s.time
         (c.group ≠ g → x.occupancy < x.quota →
           ∃ t k, exec (.drainStepResponse true) s = .next t ∧ answered t ∧ t.engine = none ∧ t.group g = placed ∧
             Returned s.time (written y).epochDone (t.group c.group) k ∧
             (∀ h, h ≠ g → h ≠ c.group → t.group h = s.group h) ∧
             Reports s t (inTurn late done c.group g s.time k)) ∧
         (c.group = g → x.occupancy ≤ x.quota →
           ∃ t k, exec (.drainStepResponse true) s = .next t ∧ answered t ∧ t.engine = none ∧
             Returned s.time (written placed).epochDone (t.group g) k ∧ (∀ h, h ≠ g → t.group h = s.group h) ∧
             Reports s t (done ++ jumpReport g s.time k)))) ∧
     (∀ h : GroupNum, (s.group h).state = .stalled → (s.group h).progress.abandonPending = false →
       (s.group h).outgoing ≠ [] →
       let y := s.group h
       let abandoned := fun y : Group => { y with
         state := .queued, outgoing := [], epoch := y.epoch + 1
         progress := { y.progress with entriesWritten := 0, begun := false, abandonPending := true } }
       let closed := fun y : Group => { y with outgoing := [], epoch := y.epoch + 1 }.epochClosed
       let record : RecordBody := .abandoned h s.time (y.epoch + 1) y.outgoing.length
       (y.marker ≠ none → s.engine ≠ none →
         (h ≠ g → x.occupancy < x.quota →
           ∃ t, exec (.groupAbandon (.whole [numberByte h])) s = .next t ∧ answered t ∧ t.group g = placed ∧
             t.group h = abandoned y ∧ (∀ i, i ≠ g → i ≠ h → t.group i = s.group i) ∧ Reports s t (late ++ [record])) ∧
         (h = g → x.occupancy ≤ x.quota →
           ∃ t, exec (.groupAbandon (.whole [numberByte h])) s = .next t ∧ answered t ∧ t.group g = abandoned placed ∧
             (∀ i, i ≠ g → t.group i = s.group i) ∧ Reports s t [record])) ∧
       (y.marker = none →
         (h ≠ g → x.occupancy < x.quota →
           ∃ t k, exec (.groupAbandon (.whole [numberByte h])) s = .next t ∧ answered t ∧ t.group g = placed ∧
             Returned s.time (closed y) (t.group h) k ∧ (∀ i, i ≠ g → i ≠ h → t.group i = s.group i) ∧
             Reports s t (inTurn late [record] h g s.time k)) ∧
         (h = g → x.occupancy ≤ x.quota →
           ∃ t k, exec (.groupAbandon (.whole [numberByte h])) s = .next t ∧ answered t ∧
             Returned s.time (closed placed) (t.group g) k ∧ (∀ i, i ≠ g → t.group i = s.group i) ∧
             Reports s t ([record] ++ jumpReport g s.time k)))))

/-- Memory's answer to the initiator path: returned unchanged to a transaction that passed; an ERROR to every one;
formed for an overlay read from the entries that the word has at the response, the filling entry first, then the outgoing
entry, then memory's data, lane by lane, whether it has both, one or none (R26, R27);
the port becomes FREE (R26, R103, R116, R123). The response to a watched access closes its context and hands over one
WATCH record with the response time, the error flag and the data of R137 (R135, R136, R138, R140, R142). Where the
initiator path has nothing outstanding the row changes nothing. That an answer nobody asked for changes nothing is the
model's choice, log entry 11. -/
def Obligations.MemoryAnswersTheInitiator : Prop :=
  (∀ (s : State) (ok : Bool) (data : Word), Settled s → s.run = .running →
     (s.arbiter.owner ≠ some .initiator → exec (.initiatorResponse ok data) s = .next s) ∧
     (∀ tk, s.arbiter.owner = some .initiator → s.port = .passing tk →
       ∃ u, exec (.initiatorResponse ok data) s = .next u ∧ u.port = .free ∧
         (s.mode ≠ .resetting → u.groups = s.groups ∧ u.windows = s.windows) ∧
         (ok = false → u.reply = some .error) ∧
         (ok = true → tk.tx.dir = .write → (∀ g, tk.disposition ≠ .overlay g) → u.reply = some .okWrite) ∧
         (ok = true → tk.tx.dir = .read → (∀ g, tk.disposition ≠ .overlay g) → u.reply = some (.okRead data)) ∧
         (∀ g, tk.disposition = .overlay g → ok = true →
           let staged := fun (list : List Entry) (k : Nat) =>
             (list.find? (fun e => e.addr == tk.tx.addr)).bind (fun e =>
               if e.lanes.getLsbD k then some (e.data.extractLsb' (8 * k) 8) else none)
           let newest := fun k : Nat => (staged (s.group g).filling k).or (staged (s.group g).outgoing k)
           ∃ answer, u.reply = some (.okRead answer) ∧
             ∀ k < 4, answer.extractLsb' (8 * k) 8 = (newest k).getD (data.extractLsb' (8 * k) 8)))) ∧
  (∀ (s : State) (ok : Bool) (data : Word) (tk : Taken) (w : WatchContext), Settled s → s.run = .running →
     s.mode ≠ .resetting → s.arbiter.owner = some .initiator → s.port = .passing tk → tk.disposition = .watch →
     s.watch = some w →
     ∃ u, exec (.initiatorResponse ok data) s = .next u ∧ u.watch = none ∧ u.link = s.link ∧
       (let shown : Word :=
          if w.capture = false then 0 else if w.dir = .write then w.writeData else if ok = true then data else 0
        let record : RecordBody :=
          .watch w.window w.takeTime w.addr w.dir w.lanes shown (!ok) s.time w.grantsAhead
        u.records.queue =
          (if s.records.enabled = true ∧ s.records.queue.length < 16 then
            s.records.queue ++ [{ body := record, urgent := s.records.urgencyMask.getLsbD 0 }]
          else s.records.queue) ∧
        u.records.lostCount =
          (if s.records.enabled = true ∧ 16 ≤ s.records.queue.length then min (s.records.lostCount + 1) 65535
          else s.records.lostCount)))

/-! ## Memory port, drain engine and ring writer -/

/-- An IDLE arbiter grants the highest waiting request, drain engine before ring writer before initiator path; the granted
request leaves its place and its requester marks it OUTSTANDING (R121). The grant that follows memory's answer, the
answer's owner having its next request in place (R122): a drain engine that goes on is granted first; else the ring
writer, waiting or going on; else the initiator path, unless a record is begun at that moment, where either may be first.
A watched access that still waits counts one more grant ahead (R134). The initiator path's place is full only while the
port is PASSING (R101, R119; kept by every step, `StepKeepsQueueLaw`). Where nothing is due the row changes nothing. That
a row whose event cannot occur changes nothing is the model's choice, log entry 11. -/
def Obligations.GrantFollowsTheOrder : Prop :=
  ∀ s : State, s.run = .running →
    (Settled s → exec .grant s = .next s) ∧
    (s.mode ≠ .resetting → s.arbiter.outstanding = none → s.canTake = false → s.flushDone = false →
      s.canBeginRecord = false → s.irq = irqCondition s.records s.link.flags →
      let a := s.arbiter
      let ahead := s.watch.map (fun w =>
        if a.initiatorPlace = none then w else { w with grantsAhead := min (w.grantsAhead + 1) 65535 })
      (∀ q, a.drainPlace = some q →
        exec .grant s = .next { s with
          arbiter := { a with outstanding := some (.drain, q), drainPlace := none }, watch := ahead
          engine := s.engine.map (fun c => { c with status := .outstanding }) }) ∧
      (∀ q, a.drainPlace = none → a.recordPlace = some q →
        exec .grant s = .next { s with
          arbiter := { a with outstanding := some (.record, q), recordPlace := none }, watch := ahead
          records := { s.records with writer := s.records.writer.map (fun w => (w.1, .outstanding)) } }) ∧
      (∀ q, a.drainPlace = none → a.recordPlace = none → a.initiatorPlace = some q →
        exec .grant s = .next { s with
          arbiter := { a with outstanding := some (.initiator, q), initiatorPlace := none } })) ∧
    (∀ c, Settled s → PlaceLaw s → s.mode ≠ .resetting → s.answeredBy c →
      ∃ t, exec c s = .next t ∧
        (let a := s.arbiter
         let granted := t.arbiter.outstanding
         (∀ q, a.drainPlace = some q → a.owner ≠ some .drain → granted = some (.drain, q)) ∧
         (a.owner = some .drain → a.drainPlace = none →
           (t.engine ≠ none → t.arbiter.owner = some .drain) ∧
           (∀ q, a.recordPlace = some q → s.records.writer ≠ none → t.engine = none → granted = some (.record, q)) ∧
           (∀ q, a.initiatorPlace = some q → a.recordPlace = none → t.engine = none →
             granted = some (.initiator, q) ∨
               (t.records.writer ≠ s.records.writer ∧ t.arbiter.owner = some .record))) ∧
         (a.owner = some .record → a.drainPlace = none → a.recordPlace = none →
           (t.records.writer ≠ none → t.arbiter.owner = some .record) ∧
           (∀ q, a.initiatorPlace = some q → t.records.writer = none → granted = some (.initiator, q))) ∧
         (a.owner = some .initiator → a.drainPlace = none → a.initiatorPlace = none →
           (∀ q, a.recordPlace = some q → s.records.writer ≠ none → granted = some (.record, q)) ∧
           (a.recordPlace = none → t.records.writer = s.records.writer → granted = none)) ∧
         (∀ q, a.initiatorPlace = some q → a.owner ≠ some .initiator →
           (t.arbiter.owner = some .initiator → t.watch = s.watch) ∧
           (t.arbiter.owner ≠ some .initiator →
             t.watch = s.watch.map (fun w => { w with grantsAhead := min (w.grantsAhead + 1) 65535 })))))

/-- The take of the head of the commit queue by the table of R58, the arbiter BUSY and no record due: the first step and
the write it asks for (R59, R65, R197). Where no take is due the row changes nothing. That a row whose event cannot
occur changes nothing is the model's choice, log entry 11. -/
def Obligations.DrainTakeFollowsTheProgressRecord : Prop :=
  ∀ s : State, s.run = .running →
    (Settled s → exec .drainTake s = .next s) ∧
    (∀ g rest, s.mode ≠ .resetting → s.engine = none → s.commitQueue = g :: rest → s.arbiter.outstanding ≠ none →
      s.canBeginRecord = false → s.irq = irqCondition s.records s.link.flags →
      let x := s.group g
      let begun := { x.progress with begun := true, entriesWritten := 0, startTime := s.time }
      let taken := fun (kind : DrainKind) (step : Step) (p : Progress) (q : Request) =>
        Host.Outcome.next (φ := Fault) (ρ := Refusal) { s with
          commitQueue := rest, engine := some { group := g, kind := kind, step := step, status := .requested }
          arbiter := { s.arbiter with drainPlace := some q }
          groups := s.groups.set g { x with state := .draining, progress := p } }
      (∀ m, x.progress.abandonPending = true → x.progress.begun = false → x.marker = some m →
        exec .drainTake s = taken .abandonEnd .finish begun
          ⟨m, .write, 0xF#4, BitVec.ofNat 32 (2 ^ 31 + (2 * (x.epoch - 1).toNat + 2) % 2 ^ 31)⟩) ∧
      (∀ m, x.progress.abandonPending = true → x.progress.begun = true → x.marker = some m →
        exec .drainTake s = taken .abandonEnd .finish x.progress
          ⟨m, .write, 0xF#4, BitVec.ofNat 32 (2 ^ 31 + (2 * (x.epoch - 1).toNat + 2) % 2 ^ 31)⟩) ∧
      (∀ m, x.progress.abandonPending = false → x.progress.begun = false → x.marker = some m →
        exec .drainTake s = taken .epoch .start begun
          ⟨m, .write, 0xF#4, BitVec.ofNat 32 ((2 * x.epoch.toNat + 1) % 2 ^ 31)⟩) ∧
      (∀ m, x.progress.abandonPending = false → x.progress.begun = true → x.faultStep = some .start →
        x.marker = some m →
        exec .drainTake s = taken .epoch .start x.progress
          ⟨m, .write, 0xF#4, BitVec.ofNat 32 ((2 * x.epoch.toNat + 1) % 2 ^ 31)⟩) ∧
      (∀ e tail, x.progress.abandonPending = false → x.progress.begun = false → x.marker = none →
        x.outgoing = e :: tail →
        exec .drainTake s = taken .epoch .entry begun ⟨e.addr, .write, e.lanes, e.data⟩) ∧
      (∀ e tail, x.progress.abandonPending = false → x.progress.begun = true → x.faultStep = some .entry →
        x.outgoing = e :: tail →
        exec .drainTake s = taken .epoch .entry x.progress ⟨e.addr, .write, e.lanes, e.data⟩) ∧
      (∀ m, x.progress.abandonPending = false → x.progress.begun = true → x.faultStep = some .finish →
        x.marker = some m →
        exec .drainTake s = taken .epoch .finish x.progress
          ⟨m, .write, 0xF#4, BitVec.ofNat 32 ((2 * x.epoch.toNat + 2) % 2 ^ 31)⟩))

/-- An ENTRY answered OK releases the entry and counts it, and the engine asks for the next entry, or for the END step
of a group with a marker; a START answered OK brings the first entry, or END (R8, R60, R122). The last ENTRY of a group
without a marker answered OK completes its epoch: in ACTIVE, with an empty commit queue, E increases, the COMMIT_DONE record
counts the entry, the engine becomes IDLE and the group takes its return state (R40, R60, R62, R64). No write is held. That
the grant falls in the same step is the model's reading, log entry 5. -/
def Obligations.DrainStepsFollowOneAnother : Prop :=
  ∀ (s : State) (c : DrainContext) (q : Request), Settled s → s.run = .running → s.mode ≠ .resetting →
    (∀ tk h r k, s.port ≠ .held tk h r k) → s.engine = some c → c.kind = .epoch →
    s.arbiter.outstanding = some (.drain, q) →
    (let x := s.group c.group
     let next := fun (t : State) (step : Step) (r : Request) =>
       t.engine = some { c with step := step, status := .outstanding } ∧ t.arbiter.outstanding = some (.drain, r)
     let counted := { x with
       outgoing := x.outgoing.tail
       progress := { x.progress with entriesWritten := x.progress.entriesWritten + 1 } }
     let endWord := fun m : Addr =>
       (⟨m, .write, 0xF#4, BitVec.ofNat 32 ((2 * x.epoch.toNat + 2) % 2 ^ 31)⟩ : Request)
     (∀ e tail, c.step = .start → x.outgoing = e :: tail →
       ∃ t, exec (.drainStepResponse true) s = .next t ∧ next t .entry ⟨e.addr, .write, e.lanes, e.data⟩ ∧
         t.groups = s.groups) ∧
     (∀ m, c.step = .start → x.outgoing = [] → x.marker = some m →
       ∃ t, exec (.drainStepResponse true) s = .next t ∧ next t .finish (endWord m) ∧ t.groups = s.groups) ∧
     (∀ d e tail, c.step = .entry → x.outgoing = d :: e :: tail →
       ∃ t, exec (.drainStepResponse true) s = .next t ∧ next t .entry ⟨e.addr, .write, e.lanes, e.data⟩ ∧
         t.group c.group = counted ∧ (∀ h, h ≠ c.group → t.group h = s.group h)) ∧
     (∀ d m, c.step = .entry → x.outgoing = [d] → x.marker = some m →
       ∃ t, exec (.drainStepResponse true) s = .next t ∧ next t .finish (endWord m) ∧ t.group c.group = counted ∧
         (∀ h, h ≠ c.group → t.group h = s.group h)) ∧
     (∀ d, x.outgoing = [d] → c.step = .entry → x.marker = none → s.mode = .active → s.commitQueue = [] →
       ∃ t, exec (.drainStepResponse true) s = .next t ∧ t.engine = none ∧ t.commitQueue = [] ∧
         (∀ h, h ≠ c.group → t.group h = s.group h) ∧
         ∃ k, Returned s.time counted.epochDone (t.group c.group) k ∧
           Reports s t (counted.doneReport c.group (x.progress.entriesWritten + 1) s.time ++
             jumpReport c.group s.time k)))

/-- An END answered OK completes the epoch: E increases and a COMMIT_DONE record is handed over where asked for, the
abandoned END of a pending abandon leaving E and reporting nothing; the fault step and the progress record return to their
idle values and the engine becomes IDLE (R62, R64, R65). In ACTIVE the group takes its return state, with the OVERRUN
record of cause JUMP of a seal point passed (R40); an IDLE engine first takes the next queued group (R62 step 5): one with
a marker has its START asked for, one with neither a marker nor an entry completes at its take in the same way, and then
the groups take their return states, their OVERRUN records in ascending group number (R142). In QUIESCING a group with
filling entries is sealed and queued, and taken at once by an IDLE engine; one without becomes OPEN, and where every group
is then OFF or OPEN with empty lists the flush completes in this happening: the mode becomes BYPASS and a write held with
reason MODE passes to memory (R112, R169, R171). That all this falls in one step is the model's reading, log entry 5, and
the order of two completions log entry 10. -/
def Obligations.EndMarkerCompletesTheEpoch : Prop :=
  ∀ (s : State) (c : DrainContext), s.engine = some c → Settled s → s.run = .running → s.arbiter.owner = some .drain →
    c.step = .finish →
    (let g := c.group
     let x := s.group g
     let y := if c.kind = .epoch then x.epochDone else x.epochClosed
     let report := if c.kind = .epoch then x.doneReport g x.progress.entriesWritten s.time else []
     let answered := exec (.drainStepResponse true) s
     (s.mode = .active → s.commitQueue = [] →
       ∃ t, answered = .next t ∧ t.engine = none ∧ t.commitQueue = [] ∧ (∀ h, h ≠ g → t.group h = s.group h) ∧
         ∃ k, Returned s.time y (t.group g) k ∧ Reports s t (report ++ jumpReport g s.time k)) ∧
     (∀ h rest, s.commitQueue = h :: rest → h ≠ g → (s.group h).progress.begun = false →
       (s.group h).progress.abandonPending = false → s.mode = .active →
       ((s.group h).marker ≠ none ∨ (s.group h).outgoing ≠ [] →
         ∃ t, answered = .next t ∧ t.takesUp h (s.group h) s.time ∧ t.commitQueue = rest ∧
           (∀ i, i ≠ g → i ≠ h → t.group i = s.group i) ∧
           ∃ k, Returned s.time y (t.group g) k ∧ Reports s t (report ++ jumpReport g s.time k)) ∧
       ((s.group h).marker = none → (s.group h).outgoing = [] → rest = [] →
         ∃ t, answered = .next t ∧ t.engine = none ∧ t.commitQueue = [] ∧
           (∀ i, i ≠ g → i ≠ h → t.group i = s.group i) ∧
           (let z := (s.group h).takenAt s.time
            ∃ k j, Returned s.time y (t.group g) k ∧ Returned s.time z.epochDone (t.group h) j ∧
              Reports s t (report ++ z.doneReport h 0 s.time ++
                if h < g then jumpReport h s.time j ++ jumpReport g s.time k
                else jumpReport g s.time k ++ jumpReport h s.time j)))) ∧
     (s.mode = .quiescing → s.commitQueue = [] → x.filling ≠ [] →
       ∃ t, answered = .next t ∧ t.takesUp g (y.flushQueued s.time) s.time ∧ t.commitQueue = [] ∧ t.mode = .quiescing ∧
         (∀ h, h ≠ g → t.group h = s.group h) ∧ Reports s t report) ∧
     (s.mode = .quiescing → s.commitQueue = [] → x.filling = [] → x.outgoing = [] →
       ∃ t, answered = .next t ∧ t.engine = none ∧ t.commitQueue = [] ∧
         t.group g = { y with state := .opened, nextInstant := none, returnState := .opened } ∧
         (∀ h, h ≠ g → t.group h = s.group h) ∧ Reports s t report ∧
         (let flushed := ∀ h, h ≠ g → (s.group h).state = .off ∨
            ((s.group h).state = .opened ∧ (s.group h).filling = [] ∧ (s.group h).outgoing = [])
          (¬ flushed → t.mode = .quiescing ∧ t.port = s.port) ∧
          (flushed → t.mode = .bypass ∧
            ((∀ tk h r k, s.port ≠ .held tk h r k) → t.port = s.port) ∧
            (∀ tk h k, s.port = .held tk h .mode k →
              t.port = .passing { tk with disposition := .pass } ∧ t.asks .initiator (requestOf tk.tx))))))

/-- A drain step answered ERROR stalls the group at that step with the address of the write, sets STALL, increases the
change count, hands over a FAULT record and leaves the engine IDLE; E, the lists and the progress record stay (R63,
R65). The commit queue is empty. Without a drain step outstanding the row changes nothing. That an answer nobody asked
for changes nothing is the model's choice, log entry 11. -/
def Obligations.DrainErrorStallsTheGroup : Prop :=
  ∀ s : State, Settled s → s.run = .running →
    (∀ ok, s.arbiter.owner ≠ some .drain → exec (.drainStepResponse ok) s = .next s) ∧
    (∀ c q, s.mode ≠ .resetting → s.engine = some c → s.arbiter.outstanding = some (.drain, q) → s.commitQueue = [] →
      ∃ t, exec (.drainStepResponse false) s = .next t ∧ t.engine = none ∧
        t.group c.group = { s.group c.group with state := .stalled, faultStep := some c.step, faultAddr := q.addr } ∧
        (∀ h, h ≠ c.group → t.group h = s.group h) ∧
        t.link = { s.link with flags := { s.link.flags with stall := true }, changeCount := s.link.changeCount + 1 } ∧
        t.irq = true ∧
        t.records.queue = (s.records.handOver (.fault c.group s.time c.step q.addr)).queue ∧
        t.records.lostCount = (s.records.handOver (.fault c.group s.time c.step q.addr)).lostCount)

/-- The IDLE ring writer begins the record at the head of the queue in slot P with the present record sequence and asks
for word 0 at base + 32P, the arbiter being BUSY (R149); where nothing is due the row changes nothing. A record word
answered OK: words 0 to 6 bring the next word; word 7 completes the record: P and the record sequence advance, the
generation counts P's wrap, the record leaves the queue, a loss that waits to be reported becomes a LOST record at its
tail, and the head word with the new P and generation is asked for (R143, R150, R157, R197). That a row whose event cannot
occur changes nothing is the model's choice, log entry 11. -/
def Obligations.RecordWordsAreWrittenInTurn : Prop :=
  (∀ s : State, s.run = .running →
     (Settled s → exec .recordBegin s = .next s) ∧
     (∀ q rest, s.mode ≠ .resetting → s.canTake = false → s.flushDone = false → s.arbiter.outstanding ≠ none →
       s.irq = irqCondition s.records s.link.flags → s.records.writer = none → s.records.enabled = true →
       s.records.queue = q :: rest → 0 < s.records.free →
       exec .recordBegin s =
         .next { s with
           records := { s.records with writer := some (.record 0 s.records.producer s.records.sequence, .requested) }
           arbiter := { s.arbiter with
             recordPlace := some ⟨BitVec.ofNat 32 (s.records.base.toNat + 32 * s.records.producer), .write, 0xF#4,
               recordWord q s.records.sequence 0⟩ } })) ∧
  (∀ (s : State) (q : QueuedRecord) (rest : List QueuedRecord) (k slot : Nat) (seq : BitVec 32) (st : Status),
     Settled s → s.run = .running → s.mode ≠ .resetting → s.arbiter.owner = some .record →
     s.records.writer = some (.record k slot seq, st) → s.records.queue = q :: rest →
     (k < 7 → ∃ t st', exec (.recordWordResponse true) s = .next t ∧
       t.records = { s.records with writer := some (.record (k + 1) slot seq, st') } ∧
       t.asks .record ⟨BitVec.ofNat 32 (s.records.base.toNat + 32 * slot + 4 * (k + 1)), .write, 0xF#4,
         recordWord q seq (k + 1)⟩) ∧
     (7 ≤ k → rest.length < 16 → ∃ t st', exec (.recordWordResponse true) s = .next t ∧
       (let p := (s.records.producer + 1) % s.records.capacity
        let gen := if s.records.producer + 1 = s.records.capacity then (s.records.generation + 1) % 65536
          else s.records.generation
        t.records = { s.records with
          producer := p, generation := gen, sequence := s.records.sequence + 1, lostCount := 0
          queue :=
            if s.records.lostCount = 0 then rest
            else rest ++ [⟨.lost s.time s.records.lostCount, s.records.urgencyMask.getLsbD 7⟩]
          writer := some (.head p gen slot q.urgent, st') } ∧
        t.asks .record ⟨s.records.headAddr, .write, 0xF#4,
          BitVec.ofNat 16 gen ++ BitVec.ofNat 16 p⟩)))

/-- A record word answered ERROR abandons the record: P, the generation and the record sequence stay, the record leaves
the queue, RINGERR is set and the change count increases, and the loss is reported by a LOST record at the tail (R143,
R152). A head word answered OK or ERROR: the urgent mark becomes the slot of an urgent record that is still unconsumed,
and is otherwise unchanged; ERROR sets RINGERR and increases the change count; the indices stay (R151, R158); an INITIAL HEAD
answered leaves the urgent mark (R146, R151). The response to a word of a ring disabled while it was outstanding has no effect,
OK or ERROR, but that the ring writer becomes IDLE, or asks for the initial head word of the ring enabled meanwhile (R146,
R148). Without such a word outstanding the rows change nothing. That a row whose event cannot occur changes nothing is the model's
choice, log entry 11; that one LOST record follows is its reading, log entry 19. -/
def Obligations.RingErrorsAndHeadWords : Prop :=
  (∀ s : State, Settled s → s.run = .running →
     (∀ ok, s.arbiter.owner ≠ some .record → exec (.recordWordResponse ok) s = .next s) ∧
     (∀ q rest k slot seq st, s.mode ≠ .resetting → s.arbiter.owner = some .record →
       s.records.writer = some (.record k slot seq, st) → s.records.queue = q :: rest → s.records.queue.length ≤ 16 →
       ∃ t, exec (.recordWordResponse false) s = .next t ∧
         t.records.producer = s.records.producer ∧ t.records.generation = s.records.generation ∧
         t.records.sequence = s.records.sequence ∧
         t.link = { s.link with flags := { s.link.flags with ringerr := true }, changeCount := s.link.changeCount + 1 } ∧
         t.irq = true ∧ t.records.lostCount = 0 ∧
         t.records.queue = rest ++ [{
           urgent := s.records.urgencyMask.getLsbD 7
           body := .lost s.time (min 65535 (s.records.lostCount +
             match q.body with
             | .lost _ n => n + 1
             | .watch .. | .commitDone .. | .late .. | .overrun .. | .fault .. | .refused .. | .abandoned .. => 1)) }])) ∧
  (∀ (s : State) (ok : Bool), Settled s → s.run = .running →
     (s.arbiter.owner ≠ some .record → exec (.headWordResponse ok) s = .next s) ∧
     (∀ p gen slot urgent st, s.mode ≠ .resetting → s.arbiter.owner = some .record →
       s.records.writer = some (.head p gen slot urgent, st) →
       ∃ t, exec (.headWordResponse ok) s = .next t ∧
         t.records.urgentMark =
           (if urgent = true ∧
               (slot + s.records.capacity - s.records.consumer % s.records.capacity) % s.records.capacity <
                 s.records.unconsumed then some slot
           else s.records.urgentMark) ∧
         t.records.producer = s.records.producer ∧ t.records.generation = s.records.generation ∧
         t.records.sequence = s.records.sequence ∧ t.records.queue = s.records.queue ∧
         t.link =
           if ok then s.link
           else { s.link with flags := { s.link.flags with ringerr := true }, changeCount := s.link.changeCount + 1 }) ∧
     (∀ st, s.records.writer = some (.initialHead, st) → s.mode ≠ .resetting → s.arbiter.owner = some .record →
       ∃ t, exec (.headWordResponse ok) s = .next t ∧
         t.records = { s.records with writer := t.records.writer } ∧ (s.records.queue = [] → t.records.writer = none) ∧
         t.link =
           if ok then s.link
           else { s.link with flags := { s.link.flags with ringerr := true }, changeCount := s.link.changeCount + 1 }) ∧
     (∀ isHead again st, s.records.writer = some (.disowned isHead again, st) → s.mode ≠ .resetting →
       s.arbiter.owner = some .record →
       ∃ t, (if isHead = true then exec (.headWordResponse ok) s else exec (.recordWordResponse ok) s) = .next t ∧
         t.link = s.link ∧ t.groups = s.groups ∧
         (again = false → s.records.enabled = false → t.records = { s.records with writer := none }) ∧
         (again = true → ∃ st', t.records = { s.records with writer := some (.initialHead, st') } ∧
           t.asks .record ⟨s.records.headAddr, .write, 0xF#4, 0⟩)))

/-- The flush completes when every group is OFF, or OPEN with empty lists, the queue is empty and the engine IDLE: the
mode becomes BYPASS, and a write held with reason MODE passes to memory; nothing else changes (R112, R171). Where it is
not complete the row changes nothing. That a row whose event cannot occur changes nothing is the model's choice, log
entry 11. -/
def Obligations.FlushCompletesInBypass : Prop :=
  ∀ s : State, s.run = .running →
    (Settled s → exec .flushComplete s = .next s) ∧
    (s.mode = .quiescing → s.engine = none → s.commitQueue = [] →
      (∀ g, (s.group g).state = .off ∨
        ((s.group g).state = .opened ∧ (s.group g).filling = [] ∧ (s.group g).outgoing = [])) →
      s.canBeginRecord = false → s.irq = irqCondition s.records s.link.flags → s.arbiter.outstanding ≠ none →
      ((∀ tk h r k, s.port ≠ .held tk h r k) → exec .flushComplete s = .next { s with mode := .bypass }) ∧
      (∀ tk h k, s.port = .held tk h .mode k →
        exec .flushComplete s =
          .next { s with
            mode := .bypass, port := .passing { tk with disposition := .pass }
            arbiter := { s.arbiter with
              initiatorPlace := some ⟨tk.tx.addr, tk.tx.dir, tk.tx.lanes, tk.tx.data⟩ } }))

/-! ## Words in memory -/

/-- The eight words of a record of each kind hold its contents at the places of TABLE 11(e) and TABLE 11(f) (R196). -/
def Obligations.RecordWordsHoldTheContents : Prop :=
  ∀ (seq : BitVec 32) (urgent : Bool),
    (∀ (w : WindowNum) (tt rt : Time) (a : Addr) (d : Direction) (l : Lanes) (x : Word) (e : Bool) (ga : Nat), ga < 65536 →
      let word := recordWord { body := .watch w tt a d l x e rt ga, urgent := urgent } seq
      (word 0).toNat = 1 + 2 ^ 8 * w.val + 2 ^ 16 * urgent.toNat + 2 ^ 17 * e.toNat +
        2 ^ 18 * (d == .write).toNat + 2 ^ 24 * l.toNat ∧
      (word 1).toNat = tt.toNat % 2 ^ 32 ∧ (word 2).toNat = tt.toNat / 2 ^ 32 + 2 ^ 16 * ga ∧ word 3 = a ∧ word 4 = x ∧
      (word 5).toNat = rt.toNat % 2 ^ 32 ∧ (word 6).toNat = rt.toNat / 2 ^ 32 ∧ word 7 = seq) ∧
    (∀ (g : GroupNum) (ep : BitVec 32) (n : Nat) (sch st et : Time), n ≤ 256 →
      let word := recordWord { body := .commitDone g ep n sch st et, urgent := urgent } seq
      (word 0).toNat = 2 + 2 ^ 8 * g.val + 2 ^ 16 * urgent.toNat ∧
      (word 1).toNat = et.toNat % 2 ^ 32 ∧ (word 2).toNat = et.toNat / 2 ^ 32 + 2 ^ 16 * (ep.toNat % 2 ^ 16) ∧
      (word 3).toNat = sch.toNat % 2 ^ 32 ∧ (word 4).toNat = n + 2 ^ 16 * (sch.toNat / 2 ^ 32) ∧
      (word 5).toNat = st.toNat % 2 ^ 32 ∧ (word 6).toNat = st.toNat / 2 ^ 32 + 2 ^ 16 * (ep.toNat / 2 ^ 16) ∧
      word 7 = seq) ∧
    (∀ (g : GroupNum) (t missed : Time) (a : Addr) (l : Lanes),
      let word := recordWord { body := .late g t a l missed, urgent := urgent } seq
      (word 0).toNat = 3 + 2 ^ 8 * g.val + 2 ^ 16 * urgent.toNat + 2 ^ 24 * l.toNat ∧
      (word 1).toNat = t.toNat % 2 ^ 32 ∧ (word 2).toNat = t.toNat / 2 ^ 32 ∧ word 3 = a ∧ word 4 = 0 ∧
      (word 5).toNat = missed.toNat % 2 ^ 32 ∧ (word 6).toNat = missed.toNat / 2 ^ 32 ∧ word 7 = seq) ∧
    (∀ (g : GroupNum) (t : Time) (cause : OverrunCause) (k : Nat), k < 65536 →
      let word := recordWord { body := .overrun g t cause k, urgent := urgent } seq
      let code := match cause with
        | .busy => 1
        | .jump => 2
      (word 0).toNat = 4 + 2 ^ 8 * g.val + 2 ^ 16 * urgent.toNat + 2 ^ 28 * code ∧
      (word 1).toNat = t.toNat % 2 ^ 32 ∧ (word 2).toNat = t.toNat / 2 ^ 32 + 2 ^ 16 * k ∧ word 3 = 0 ∧ word 4 = 0 ∧
      word 5 = 0 ∧ word 6 = 0 ∧ word 7 = seq) ∧
    (∀ (g : GroupNum) (t : Time) (step : Step) (a : Addr),
      let word := recordWord { body := .fault g t step a, urgent := urgent } seq
      let code := match step with
        | .start => 1
        | .entry => 2
        | .finish => 3
      (word 0).toNat = 5 + 2 ^ 8 * g.val + 2 ^ 16 * urgent.toNat + 2 ^ 28 * code ∧
      (word 1).toNat = t.toNat % 2 ^ 32 ∧ (word 2).toNat = t.toNat / 2 ^ 32 ∧ word 3 = a ∧ word 4 = 0 ∧ word 5 = 0 ∧
      word 6 = 0 ∧ word 7 = seq) ∧
    (∀ (g : GroupNum) (t : Time) (cause : RefusedCause) (a : Addr) (l : Lanes),
      let word := recordWord { body := .refused g t cause a l, urgent := urgent } seq
      let code := match cause with
        | .quota => 1
        | .pool => 2
        | .timeout => 3
        | .reset => 4
      (word 0).toNat = 6 + 2 ^ 8 * g.val + 2 ^ 16 * urgent.toNat + 2 ^ 24 * l.toNat + 2 ^ 28 * code ∧
      (word 1).toNat = t.toNat % 2 ^ 32 ∧ (word 2).toNat = t.toNat / 2 ^ 32 ∧ word 3 = a ∧ word 4 = 0 ∧ word 5 = 0 ∧
      word 6 = 0 ∧ word 7 = seq) ∧
    (∀ (g : GroupNum) (t : Time) (epoch : BitVec 32) (dropped : Nat), dropped ≤ 256 →
      let word := recordWord { body := .abandoned g t epoch dropped, urgent := urgent } seq
      (word 0).toNat = 7 + 2 ^ 8 * g.val + 2 ^ 16 * urgent.toNat ∧
      (word 1).toNat = t.toNat % 2 ^ 32 ∧ (word 2).toNat = t.toNat / 2 ^ 32 + 2 ^ 16 * dropped ∧ word 3 = 0 ∧
      word 4 = epoch ∧ word 5 = 0 ∧ word 6 = 0 ∧ word 7 = seq) ∧
    (∀ (t : Time) (count : Nat), count < 65536 →
      let word := recordWord { body := .lost t count, urgent := urgent } seq
      (word 0).toNat = 8 + 2 ^ 16 * urgent.toNat ∧
      (word 1).toNat = t.toNat % 2 ^ 32 ∧ (word 2).toNat = t.toNat / 2 ^ 32 + 2 ^ 16 * count ∧ word 3 = 0 ∧
      word 4 = 0 ∧ word 5 = 0 ∧ word 6 = 0 ∧ word 7 = seq)

/-- Lane `k` of a merged or overlaid word is the new word's where the lane set holds lane `k`, and the old word's elsewhere
(R2, R11). -/
def Obligations.OverlayTakesTheLanes : Prop :=
  ∀ (old new : Word) (l : Lanes) (k : Nat), k < 4 →
    (overlay old new l).extractLsb' (8 * k) 8 =
      if l.getLsbD k then new.extractLsb' (8 * k) 8 else old.extractLsb' (8 * k) 8
end

