-- ==== Sys2Proof/Laws/State.lean ====
section
/-! SUPPORT. One lemma per field per update of the state, true by rfl, so that no later proof unfolds a record update. -/

namespace Sys2Proof.Machine

namespace State

variable (s : State)

/-! ### setGroup -/

@[simp] theorem setGroup_run (g : GroupNum) (x : Group) : (s.setGroup g x).run = s.run := rfl
@[simp] theorem setGroup_mode (g : GroupNum) (x : Group) : (s.setGroup g x).mode = s.mode := rfl
@[simp] theorem setGroup_timebase (g : GroupNum) (x : Group) : (s.setGroup g x).timebase = s.timebase := rfl
@[simp] theorem setGroup_windows (g : GroupNum) (x : Group) : (s.setGroup g x).windows = s.windows := rfl
@[simp] theorem setGroup_port (g : GroupNum) (x : Group) : (s.setGroup g x).port = s.port := rfl
@[simp] theorem setGroup_reply (g : GroupNum) (x : Group) : (s.setGroup g x).reply = s.reply := rfl
@[simp] theorem setGroup_groups (g : GroupNum) (x : Group) : (s.setGroup g x).groups = s.groups.set g x := rfl
@[simp] theorem setGroup_commitQueue (g : GroupNum) (x : Group) : (s.setGroup g x).commitQueue = s.commitQueue := rfl
@[simp] theorem setGroup_engine (g : GroupNum) (x : Group) : (s.setGroup g x).engine = s.engine := rfl
@[simp] theorem setGroup_arbiter (g : GroupNum) (x : Group) : (s.setGroup g x).arbiter = s.arbiter := rfl
@[simp] theorem setGroup_watch (g : GroupNum) (x : Group) : (s.setGroup g x).watch = s.watch := rfl
@[simp] theorem setGroup_records (g : GroupNum) (x : Group) : (s.setGroup g x).records = s.records := rfl
@[simp] theorem setGroup_link (g : GroupNum) (x : Group) : (s.setGroup g x).link = s.link := rfl
@[simp] theorem setGroup_irq (g : GroupNum) (x : Group) : (s.setGroup g x).irq = s.irq := rfl
@[simp] theorem setGroup_due (g : GroupNum) (x : Group) : (s.setGroup g x).due = s.due := rfl
@[simp] theorem setGroup_choices (g : GroupNum) (x : Group) : (s.setGroup g x).choices = s.choices := rfl
@[simp] theorem setGroup_pending (g : GroupNum) (x : Group) : (s.setGroup g x).pending = s.pending := rfl

/-! ### setTimebase -/

@[simp] theorem setTimebase_run (t : Timebase) : (s.setTimebase t).run = s.run := rfl
@[simp] theorem setTimebase_mode (t : Timebase) : (s.setTimebase t).mode = s.mode := rfl
@[simp] theorem setTimebase_timebase (t : Timebase) : (s.setTimebase t).timebase = t := rfl
@[simp] theorem setTimebase_windows (t : Timebase) : (s.setTimebase t).windows = s.windows := rfl
@[simp] theorem setTimebase_port (t : Timebase) : (s.setTimebase t).port = s.port := rfl
@[simp] theorem setTimebase_reply (t : Timebase) : (s.setTimebase t).reply = s.reply := rfl
@[simp] theorem setTimebase_groups (t : Timebase) : (s.setTimebase t).groups = s.groups := rfl
@[simp] theorem setTimebase_commitQueue (t : Timebase) : (s.setTimebase t).commitQueue = s.commitQueue := rfl
@[simp] theorem setTimebase_engine (t : Timebase) : (s.setTimebase t).engine = s.engine := rfl
@[simp] theorem setTimebase_arbiter (t : Timebase) : (s.setTimebase t).arbiter = s.arbiter := rfl
@[simp] theorem setTimebase_watch (t : Timebase) : (s.setTimebase t).watch = s.watch := rfl
@[simp] theorem setTimebase_records (t : Timebase) : (s.setTimebase t).records = s.records := rfl
@[simp] theorem setTimebase_link (t : Timebase) : (s.setTimebase t).link = s.link := rfl
@[simp] theorem setTimebase_irq (t : Timebase) : (s.setTimebase t).irq = s.irq := rfl
@[simp] theorem setTimebase_due (t : Timebase) : (s.setTimebase t).due = s.due := rfl
@[simp] theorem setTimebase_choices (t : Timebase) : (s.setTimebase t).choices = s.choices := rfl
@[simp] theorem setTimebase_pending (t : Timebase) : (s.setTimebase t).pending = s.pending := rfl

/-! ### setRecords -/

@[simp] theorem setRecords_run (r : RecordUnit) : (s.setRecords r).run = s.run := rfl
@[simp] theorem setRecords_mode (r : RecordUnit) : (s.setRecords r).mode = s.mode := rfl
@[simp] theorem setRecords_timebase (r : RecordUnit) : (s.setRecords r).timebase = s.timebase := rfl
@[simp] theorem setRecords_windows (r : RecordUnit) : (s.setRecords r).windows = s.windows := rfl
@[simp] theorem setRecords_port (r : RecordUnit) : (s.setRecords r).port = s.port := rfl
@[simp] theorem setRecords_reply (r : RecordUnit) : (s.setRecords r).reply = s.reply := rfl
@[simp] theorem setRecords_groups (r : RecordUnit) : (s.setRecords r).groups = s.groups := rfl
@[simp] theorem setRecords_commitQueue (r : RecordUnit) : (s.setRecords r).commitQueue = s.commitQueue := rfl
@[simp] theorem setRecords_engine (r : RecordUnit) : (s.setRecords r).engine = s.engine := rfl
@[simp] theorem setRecords_arbiter (r : RecordUnit) : (s.setRecords r).arbiter = s.arbiter := rfl
@[simp] theorem setRecords_watch (r : RecordUnit) : (s.setRecords r).watch = s.watch := rfl
@[simp] theorem setRecords_records (r : RecordUnit) : (s.setRecords r).records = r := rfl
@[simp] theorem setRecords_link (r : RecordUnit) : (s.setRecords r).link = s.link := rfl
@[simp] theorem setRecords_irq (r : RecordUnit) : (s.setRecords r).irq = s.irq := rfl
@[simp] theorem setRecords_due (r : RecordUnit) : (s.setRecords r).due = s.due := rfl
@[simp] theorem setRecords_choices (r : RecordUnit) : (s.setRecords r).choices = s.choices := rfl
@[simp] theorem setRecords_pending (r : RecordUnit) : (s.setRecords r).pending = s.pending := rfl

/-! ### setLink -/

@[simp] theorem setLink_run (l : Link) : (s.setLink l).run = s.run := rfl
@[simp] theorem setLink_mode (l : Link) : (s.setLink l).mode = s.mode := rfl
@[simp] theorem setLink_timebase (l : Link) : (s.setLink l).timebase = s.timebase := rfl
@[simp] theorem setLink_windows (l : Link) : (s.setLink l).windows = s.windows := rfl
@[simp] theorem setLink_port (l : Link) : (s.setLink l).port = s.port := rfl
@[simp] theorem setLink_reply (l : Link) : (s.setLink l).reply = s.reply := rfl
@[simp] theorem setLink_groups (l : Link) : (s.setLink l).groups = s.groups := rfl
@[simp] theorem setLink_commitQueue (l : Link) : (s.setLink l).commitQueue = s.commitQueue := rfl
@[simp] theorem setLink_engine (l : Link) : (s.setLink l).engine = s.engine := rfl
@[simp] theorem setLink_arbiter (l : Link) : (s.setLink l).arbiter = s.arbiter := rfl
@[simp] theorem setLink_watch (l : Link) : (s.setLink l).watch = s.watch := rfl
@[simp] theorem setLink_records (l : Link) : (s.setLink l).records = s.records := rfl
@[simp] theorem setLink_link (l : Link) : (s.setLink l).link = l := rfl
@[simp] theorem setLink_irq (l : Link) : (s.setLink l).irq = s.irq := rfl
@[simp] theorem setLink_due (l : Link) : (s.setLink l).due = s.due := rfl
@[simp] theorem setLink_choices (l : Link) : (s.setLink l).choices = s.choices := rfl
@[simp] theorem setLink_pending (l : Link) : (s.setLink l).pending = s.pending := rfl

/-! ### setArbiter -/

@[simp] theorem setArbiter_run (a : Arbiter) : (s.setArbiter a).run = s.run := rfl
@[simp] theorem setArbiter_mode (a : Arbiter) : (s.setArbiter a).mode = s.mode := rfl
@[simp] theorem setArbiter_timebase (a : Arbiter) : (s.setArbiter a).timebase = s.timebase := rfl
@[simp] theorem setArbiter_windows (a : Arbiter) : (s.setArbiter a).windows = s.windows := rfl
@[simp] theorem setArbiter_port (a : Arbiter) : (s.setArbiter a).port = s.port := rfl
@[simp] theorem setArbiter_reply (a : Arbiter) : (s.setArbiter a).reply = s.reply := rfl
@[simp] theorem setArbiter_groups (a : Arbiter) : (s.setArbiter a).groups = s.groups := rfl
@[simp] theorem setArbiter_commitQueue (a : Arbiter) : (s.setArbiter a).commitQueue = s.commitQueue := rfl
@[simp] theorem setArbiter_engine (a : Arbiter) : (s.setArbiter a).engine = s.engine := rfl
@[simp] theorem setArbiter_arbiter (a : Arbiter) : (s.setArbiter a).arbiter = a := rfl
@[simp] theorem setArbiter_watch (a : Arbiter) : (s.setArbiter a).watch = s.watch := rfl
@[simp] theorem setArbiter_records (a : Arbiter) : (s.setArbiter a).records = s.records := rfl
@[simp] theorem setArbiter_link (a : Arbiter) : (s.setArbiter a).link = s.link := rfl
@[simp] theorem setArbiter_irq (a : Arbiter) : (s.setArbiter a).irq = s.irq := rfl
@[simp] theorem setArbiter_due (a : Arbiter) : (s.setArbiter a).due = s.due := rfl
@[simp] theorem setArbiter_choices (a : Arbiter) : (s.setArbiter a).choices = s.choices := rfl
@[simp] theorem setArbiter_pending (a : Arbiter) : (s.setArbiter a).pending = s.pending := rfl

/-! ### setPort -/

@[simp] theorem setPort_run (p : Port) : (s.setPort p).run = s.run := rfl
@[simp] theorem setPort_mode (p : Port) : (s.setPort p).mode = s.mode := rfl
@[simp] theorem setPort_timebase (p : Port) : (s.setPort p).timebase = s.timebase := rfl
@[simp] theorem setPort_windows (p : Port) : (s.setPort p).windows = s.windows := rfl
@[simp] theorem setPort_port (p : Port) : (s.setPort p).port = p := rfl
@[simp] theorem setPort_reply (p : Port) : (s.setPort p).reply = s.reply := rfl
@[simp] theorem setPort_groups (p : Port) : (s.setPort p).groups = s.groups := rfl
@[simp] theorem setPort_commitQueue (p : Port) : (s.setPort p).commitQueue = s.commitQueue := rfl
@[simp] theorem setPort_engine (p : Port) : (s.setPort p).engine = s.engine := rfl
@[simp] theorem setPort_arbiter (p : Port) : (s.setPort p).arbiter = s.arbiter := rfl
@[simp] theorem setPort_watch (p : Port) : (s.setPort p).watch = s.watch := rfl
@[simp] theorem setPort_records (p : Port) : (s.setPort p).records = s.records := rfl
@[simp] theorem setPort_link (p : Port) : (s.setPort p).link = s.link := rfl
@[simp] theorem setPort_irq (p : Port) : (s.setPort p).irq = s.irq := rfl
@[simp] theorem setPort_due (p : Port) : (s.setPort p).due = s.due := rfl
@[simp] theorem setPort_choices (p : Port) : (s.setPort p).choices = s.choices := rfl
@[simp] theorem setPort_pending (p : Port) : (s.setPort p).pending = s.pending := rfl

/-! ### setEngine -/

@[simp] theorem setEngine_run (e : Option DrainContext) : (s.setEngine e).run = s.run := rfl
@[simp] theorem setEngine_mode (e : Option DrainContext) : (s.setEngine e).mode = s.mode := rfl
@[simp] theorem setEngine_timebase (e : Option DrainContext) : (s.setEngine e).timebase = s.timebase := rfl
@[simp] theorem setEngine_windows (e : Option DrainContext) : (s.setEngine e).windows = s.windows := rfl
@[simp] theorem setEngine_port (e : Option DrainContext) : (s.setEngine e).port = s.port := rfl
@[simp] theorem setEngine_reply (e : Option DrainContext) : (s.setEngine e).reply = s.reply := rfl
@[simp] theorem setEngine_groups (e : Option DrainContext) : (s.setEngine e).groups = s.groups := rfl
@[simp] theorem setEngine_commitQueue (e : Option DrainContext) : (s.setEngine e).commitQueue = s.commitQueue := rfl
@[simp] theorem setEngine_engine (e : Option DrainContext) : (s.setEngine e).engine = e := rfl
@[simp] theorem setEngine_arbiter (e : Option DrainContext) : (s.setEngine e).arbiter = s.arbiter := rfl
@[simp] theorem setEngine_watch (e : Option DrainContext) : (s.setEngine e).watch = s.watch := rfl
@[simp] theorem setEngine_records (e : Option DrainContext) : (s.setEngine e).records = s.records := rfl
@[simp] theorem setEngine_link (e : Option DrainContext) : (s.setEngine e).link = s.link := rfl
@[simp] theorem setEngine_irq (e : Option DrainContext) : (s.setEngine e).irq = s.irq := rfl
@[simp] theorem setEngine_due (e : Option DrainContext) : (s.setEngine e).due = s.due := rfl
@[simp] theorem setEngine_choices (e : Option DrainContext) : (s.setEngine e).choices = s.choices := rfl
@[simp] theorem setEngine_pending (e : Option DrainContext) : (s.setEngine e).pending = s.pending := rfl

/-! ### setDue -/

@[simp] theorem setDue_run (d : Due) : (s.setDue d).run = s.run := rfl
@[simp] theorem setDue_mode (d : Due) : (s.setDue d).mode = s.mode := rfl
@[simp] theorem setDue_timebase (d : Due) : (s.setDue d).timebase = s.timebase := rfl
@[simp] theorem setDue_windows (d : Due) : (s.setDue d).windows = s.windows := rfl
@[simp] theorem setDue_port (d : Due) : (s.setDue d).port = s.port := rfl
@[simp] theorem setDue_reply (d : Due) : (s.setDue d).reply = s.reply := rfl
@[simp] theorem setDue_groups (d : Due) : (s.setDue d).groups = s.groups := rfl
@[simp] theorem setDue_commitQueue (d : Due) : (s.setDue d).commitQueue = s.commitQueue := rfl
@[simp] theorem setDue_engine (d : Due) : (s.setDue d).engine = s.engine := rfl
@[simp] theorem setDue_arbiter (d : Due) : (s.setDue d).arbiter = s.arbiter := rfl
@[simp] theorem setDue_watch (d : Due) : (s.setDue d).watch = s.watch := rfl
@[simp] theorem setDue_records (d : Due) : (s.setDue d).records = s.records := rfl
@[simp] theorem setDue_link (d : Due) : (s.setDue d).link = s.link := rfl
@[simp] theorem setDue_irq (d : Due) : (s.setDue d).irq = s.irq := rfl
@[simp] theorem setDue_due (d : Due) : (s.setDue d).due = d := rfl
@[simp] theorem setDue_choices (d : Due) : (s.setDue d).choices = s.choices := rfl
@[simp] theorem setDue_pending (d : Due) : (s.setDue d).pending = s.pending := rfl

/-! ### setMode -/

@[simp] theorem setMode_run (m : Mode) : (s.setMode m).run = s.run := rfl
@[simp] theorem setMode_mode (m : Mode) : (s.setMode m).mode = m := rfl
@[simp] theorem setMode_timebase (m : Mode) : (s.setMode m).timebase = s.timebase := rfl
@[simp] theorem setMode_windows (m : Mode) : (s.setMode m).windows = s.windows := rfl
@[simp] theorem setMode_port (m : Mode) : (s.setMode m).port = s.port := rfl
@[simp] theorem setMode_reply (m : Mode) : (s.setMode m).reply = s.reply := rfl
@[simp] theorem setMode_groups (m : Mode) : (s.setMode m).groups = s.groups := rfl
@[simp] theorem setMode_commitQueue (m : Mode) : (s.setMode m).commitQueue = s.commitQueue := rfl
@[simp] theorem setMode_engine (m : Mode) : (s.setMode m).engine = s.engine := rfl
@[simp] theorem setMode_arbiter (m : Mode) : (s.setMode m).arbiter = s.arbiter := rfl
@[simp] theorem setMode_watch (m : Mode) : (s.setMode m).watch = s.watch := rfl
@[simp] theorem setMode_records (m : Mode) : (s.setMode m).records = s.records := rfl
@[simp] theorem setMode_link (m : Mode) : (s.setMode m).link = s.link := rfl
@[simp] theorem setMode_irq (m : Mode) : (s.setMode m).irq = s.irq := rfl
@[simp] theorem setMode_due (m : Mode) : (s.setMode m).due = s.due := rfl
@[simp] theorem setMode_choices (m : Mode) : (s.setMode m).choices = s.choices := rfl
@[simp] theorem setMode_pending (m : Mode) : (s.setMode m).pending = s.pending := rfl

/-! ### enqueue -/

@[simp] theorem enqueue_run (g : GroupNum) : (s.enqueue g).run = s.run := rfl
@[simp] theorem enqueue_mode (g : GroupNum) : (s.enqueue g).mode = s.mode := rfl
@[simp] theorem enqueue_timebase (g : GroupNum) : (s.enqueue g).timebase = s.timebase := rfl
@[simp] theorem enqueue_windows (g : GroupNum) : (s.enqueue g).windows = s.windows := rfl
@[simp] theorem enqueue_port (g : GroupNum) : (s.enqueue g).port = s.port := rfl
@[simp] theorem enqueue_reply (g : GroupNum) : (s.enqueue g).reply = s.reply := rfl
@[simp] theorem enqueue_groups (g : GroupNum) : (s.enqueue g).groups = s.groups := rfl
@[simp] theorem enqueue_commitQueue (g : GroupNum) : (s.enqueue g).commitQueue = s.commitQueue ++ [g] := rfl
@[simp] theorem enqueue_engine (g : GroupNum) : (s.enqueue g).engine = s.engine := rfl
@[simp] theorem enqueue_arbiter (g : GroupNum) : (s.enqueue g).arbiter = s.arbiter := rfl
@[simp] theorem enqueue_watch (g : GroupNum) : (s.enqueue g).watch = s.watch := rfl
@[simp] theorem enqueue_records (g : GroupNum) : (s.enqueue g).records = s.records := rfl
@[simp] theorem enqueue_link (g : GroupNum) : (s.enqueue g).link = s.link := rfl
@[simp] theorem enqueue_irq (g : GroupNum) : (s.enqueue g).irq = s.irq := rfl
@[simp] theorem enqueue_due (g : GroupNum) : (s.enqueue g).due = s.due := rfl
@[simp] theorem enqueue_choices (g : GroupNum) : (s.enqueue g).choices = s.choices := rfl
@[simp] theorem enqueue_pending (g : GroupNum) : (s.enqueue g).pending = s.pending := rfl

/-! ### answer -/

@[simp] theorem answer_run (r : Reply) : (s.answer r).run = s.run := rfl
@[simp] theorem answer_mode (r : Reply) : (s.answer r).mode = s.mode := rfl
@[simp] theorem answer_timebase (r : Reply) : (s.answer r).timebase = s.timebase := rfl
@[simp] theorem answer_windows (r : Reply) : (s.answer r).windows = s.windows := rfl
@[simp] theorem answer_port (r : Reply) : (s.answer r).port = .free := rfl
@[simp] theorem answer_reply (r : Reply) : (s.answer r).reply = some r := rfl
@[simp] theorem answer_groups (r : Reply) : (s.answer r).groups = s.groups := rfl
@[simp] theorem answer_commitQueue (r : Reply) : (s.answer r).commitQueue = s.commitQueue := rfl
@[simp] theorem answer_engine (r : Reply) : (s.answer r).engine = s.engine := rfl
@[simp] theorem answer_arbiter (r : Reply) : (s.answer r).arbiter = s.arbiter := rfl
@[simp] theorem answer_watch (r : Reply) : (s.answer r).watch = s.watch := rfl
@[simp] theorem answer_records (r : Reply) : (s.answer r).records = s.records := rfl
@[simp] theorem answer_link (r : Reply) : (s.answer r).link = s.link := rfl
@[simp] theorem answer_irq (r : Reply) : (s.answer r).irq = s.irq := rfl
@[simp] theorem answer_due (r : Reply) : (s.answer r).due = s.due := rfl
@[simp] theorem answer_choices (r : Reply) : (s.answer r).choices = s.choices := rfl
@[simp] theorem answer_pending (r : Reply) : (s.answer r).pending = s.pending := rfl

/-! ### refreshIrq -/

@[simp] theorem refreshIrq_run : (s.refreshIrq).run = s.run := rfl
@[simp] theorem refreshIrq_mode : (s.refreshIrq).mode = s.mode := rfl
@[simp] theorem refreshIrq_timebase : (s.refreshIrq).timebase = s.timebase := rfl
@[simp] theorem refreshIrq_windows : (s.refreshIrq).windows = s.windows := rfl
@[simp] theorem refreshIrq_port : (s.refreshIrq).port = s.port := rfl
@[simp] theorem refreshIrq_reply : (s.refreshIrq).reply = s.reply := rfl
@[simp] theorem refreshIrq_groups : (s.refreshIrq).groups = s.groups := rfl
@[simp] theorem refreshIrq_commitQueue : (s.refreshIrq).commitQueue = s.commitQueue := rfl
@[simp] theorem refreshIrq_engine : (s.refreshIrq).engine = s.engine := rfl
@[simp] theorem refreshIrq_arbiter : (s.refreshIrq).arbiter = s.arbiter := rfl
@[simp] theorem refreshIrq_watch : (s.refreshIrq).watch = s.watch := rfl
@[simp] theorem refreshIrq_records : (s.refreshIrq).records = s.records := rfl
@[simp] theorem refreshIrq_link : (s.refreshIrq).link = s.link := rfl
@[simp] theorem refreshIrq_irq : (s.refreshIrq).irq = irqCondition s.records s.link.flags := rfl
@[simp] theorem refreshIrq_due : (s.refreshIrq).due = s.due := rfl
@[simp] theorem refreshIrq_choices : (s.refreshIrq).choices = s.choices := rfl
@[simp] theorem refreshIrq_pending : (s.refreshIrq).pending = s.pending := rfl

/-! ### Groups and TIME through the updates -/

theorem group_def (g : GroupNum) : s.group g = s.groups.get g := rfl

@[simp] theorem group_setGroup_self (g : GroupNum) (x : Group) : (s.setGroup g x).group g = x := by
  simp [group_def]

theorem group_setGroup_ne {g h : GroupNum} (x : Group) (hne : h ≠ g) : (s.setGroup g x).group h = s.group h := by
  simp [group_def, Table8.get_set_ne _ x hne]

theorem group_setGroup (g h : GroupNum) (x : Group) :
    (s.setGroup g x).group h = if h = g then x else s.group h := by
  simp [group_def, Table8.get_set]

theorem modifyGroup_eq (g : GroupNum) (f : Group → Group) : s.modifyGroup g f = s.setGroup g (f (s.group g)) := rfl

@[simp] theorem setTimebase_group (t : Timebase) (h : GroupNum) : (s.setTimebase t).group h = s.group h := rfl
@[simp] theorem setRecords_group (r : RecordUnit) (h : GroupNum) : (s.setRecords r).group h = s.group h := rfl
@[simp] theorem setLink_group (l : Link) (h : GroupNum) : (s.setLink l).group h = s.group h := rfl
@[simp] theorem setArbiter_group (a : Arbiter) (h : GroupNum) : (s.setArbiter a).group h = s.group h := rfl
@[simp] theorem setPort_group (p : Port) (h : GroupNum) : (s.setPort p).group h = s.group h := rfl
@[simp] theorem setEngine_group (e : Option DrainContext) (h : GroupNum) : (s.setEngine e).group h = s.group h := rfl
@[simp] theorem setDue_group (d : Due) (h : GroupNum) : (s.setDue d).group h = s.group h := rfl
@[simp] theorem setMode_group (m : Mode) (h : GroupNum) : (s.setMode m).group h = s.group h := rfl
@[simp] theorem enqueue_group (g : GroupNum) (h : GroupNum) : (s.enqueue g).group h = s.group h := rfl
@[simp] theorem answer_group (r : Reply) (h : GroupNum) : (s.answer r).group h = s.group h := rfl
@[simp] theorem refreshIrq_group (h : GroupNum) : (s.refreshIrq).group h = s.group h := rfl
@[simp] theorem setGroup_time (g : GroupNum) (x : Group) : (s.setGroup g x).time = s.time := rfl
@[simp] theorem setRecords_time (r : RecordUnit) : (s.setRecords r).time = s.time := rfl
@[simp] theorem setLink_time (l : Link) : (s.setLink l).time = s.time := rfl
@[simp] theorem setArbiter_time (a : Arbiter) : (s.setArbiter a).time = s.time := rfl
@[simp] theorem setPort_time (p : Port) : (s.setPort p).time = s.time := rfl
@[simp] theorem setEngine_time (e : Option DrainContext) : (s.setEngine e).time = s.time := rfl
@[simp] theorem setDue_time (d : Due) : (s.setDue d).time = s.time := rfl
@[simp] theorem setMode_time (m : Mode) : (s.setMode m).time = s.time := rfl
@[simp] theorem enqueue_time (g : GroupNum) : (s.enqueue g).time = s.time := rfl
@[simp] theorem answer_time (r : Reply) : (s.answer r).time = s.time := rfl
@[simp] theorem refreshIrq_time : (s.refreshIrq).time = s.time := rfl

@[simp] theorem modifyGroup_group_self (g : GroupNum) (f : Group → Group) :
    (s.modifyGroup g f).group g = f (s.group g) := by simp [modifyGroup_eq]

theorem modifyGroup_group_ne {g h : GroupNum} (f : Group → Group) (hne : h ≠ g) :
    (s.modifyGroup g f).group h = s.group h := s.group_setGroup_ne _ hne

theorem modifyGroup_group (g h : GroupNum) (f : Group → Group) :
    (s.modifyGroup g f).group h = if h = g then f (s.group g) else s.group h := by
  simp [modifyGroup_eq, group_setGroup]

/-! ### The updates made of these -/

theorem handOver_eq (b : RecordBody) : s.handOver b = s.setRecords (s.records.handOver b) := rfl

theorem raise_eq (f : Flag) : s.raise f = s.setLink (s.link.raise f) := rfl

theorem endTransaction_eq : s.endTransaction = s.setArbiter { s.arbiter with outstanding := none } := rfl

theorem setShifter_eq (f : Shifter) : s.setShifter f = s.setLink { s.link with shifter := f } := rfl

theorem setResult_eq (r : Result) : s.setResult r = s.setLink { s.link with lastResult := r } := rfl

theorem writerIdle_eq : s.writerIdle = s.setRecords { s.records with writer := none } := rfl

end State

end Sys2Proof.Machine
end

