-- ==== Sys2Proof/Laws/Ops.lean ====
section
/-! SUPPORT. What each shared operation can do, said once: the whole state after it as an update of the state before it, or
the cases it takes. The later proofs cite these and unfold no operation. -/

namespace Sys2Proof.Machine

/-! ## The record unit -/

namespace RecordUnit

variable (r : RecordUnit)

/-- A hand-over touches the queue and the lost count alone (R142). -/
theorem handOver_eq (b : RecordBody) :
    r.handOver b = { r with
      queue :=
        if r.enabled = true ∧ r.queue.length < Config.recordQueueSize then
          r.queue ++ [{ body := b, urgent := urgentFor r.urgencyMask b }]
        else r.queue
      lostCount :=
        if r.enabled = true ∧ Config.recordQueueSize ≤ r.queue.length then satAdd r.lostCount 1 else r.lostCount } := by
  unfold handOver append
  by_cases he : r.enabled = true
  · by_cases hq : Config.recordQueueSize ≤ r.queue.length
    · simp [he, hq, Nat.not_lt.mpr hq]
    · simp [he, hq, Nat.lt_of_not_le hq]
  · cases r; simp_all

/-- Reporting a loss touches the queue and the lost count alone (R143). -/
theorem appendLost_eq (t : Time) :
    r.appendLost t =
      if r.queue.length < Config.recordQueueSize ∧ 0 < r.lostCount then
        { r with
          queue := r.queue ++ [{ body := .lost t r.lostCount, urgent := urgentFor r.urgencyMask (.lost t r.lostCount) }]
          lostCount := 0 }
      else r := rfl

end RecordUnit

namespace State

variable (s : State)

/-- The ring writer takes a task and its word waits in the place (R149). -/
theorem writerRequest_eq (t : WriterTask) (q : Request) :
    s.writerRequest t q = { s with
      records := { s.records with writer := some (t, .requested) }
      arbiter := { s.arbiter with recordPlace := some q } } := rfl

/-- The writer goes on with the record at the head of the queue, or becomes IDLE where there is none. -/
theorem requestRecordWord_cases (k slot : Nat) (seq : BitVec 32) :
    (s.records.queue = [] ∧ s.requestRecordWord k slot seq = s.writerIdle) ∨
      (∃ q rest, s.records.queue = q :: rest ∧
        s.requestRecordWord k slot seq =
          s.writerRequest (.record k slot seq) (deviceWrite (s.records.slotWord slot k) (recordWord q seq k))) := by
  unfold requestRecordWord
  cases h : s.records.queue with
  | nil => exact .inl ⟨rfl, rfl⟩
  | cons q rest => exact .inr ⟨q, rest, rfl, rfl⟩

/-! ## The staging store -/

/-- A late write is counted and, where asked for, reported; nothing else changes (R35). -/
theorem judgeLateness_eq (g : GroupNum) (t : Transaction) :
    s.judgeLateness g t =
      if (s.group g).state = .sealed then
        { s with
          groups := s.groups.set g { s.group g with lateCount := satAdd (s.group g).lateCount 1 }
          records :=
            if (s.group g).reportLates then
              s.records.handOver (.late g s.time t.addr t.lanes (s.group g).missedInstant)
            else s.records }
      else s := by
  unfold judgeLateness
  by_cases h : (s.group g).state = .sealed
  · by_cases hr : (s.group g).reportLates = true
    · simp only [if_pos h, if_pos hr]; rfl
    · simp only [if_pos h, if_neg hr]; rfl
  · simp only [if_neg h]

/-- The group after a placement that leaves its filling list `l`. -/
def placed (x : Group) (l : List Entry) : Group :=
  { x with filling := l, lateCount := if x.state = .sealed then satAdd x.lateCount 1 else x.lateCount }

/-- The record unit after a placement into group `g`. -/
def recordsAfterPlacement (g : GroupNum) (t : Transaction) : RecordUnit :=
  if (s.group g).state = .sealed ∧ (s.group g).reportLates = true then
    s.records.handOver (.late g s.time t.addr t.lanes (s.group g).missedInstant)
  else s.records

theorem place_eq (g : GroupNum) (t : Transaction) (f : List Entry → List Entry) :
    (s.modifyGroup g (fun x => { x with filling := f x.filling })).judgeLateness g t = { s with
      groups := s.groups.set g (placed (s.group g) (f (s.group g).filling))
      records := s.recordsAfterPlacement g t } := by
  rw [judgeLateness_eq, modifyGroup_group_self, modifyGroup_eq]
  unfold recordsAfterPlacement placed
  by_cases h : (s.group g).state = .sealed
  · rw [if_pos h, if_pos h]
    by_cases hr : (s.group g).reportLates = true
    · rw [if_pos hr, if_pos ⟨h, hr⟩]
      simp only [setGroup, Table8.set_set]
      rfl
    · rw [if_neg hr, if_neg (fun hc => hr hc.2)]
      simp only [setGroup, Table8.set_set]
  · rw [if_neg h, if_neg h, if_neg (fun hc => h hc.1)]
    rfl

/-- A placement by merge (R11, R15). -/
theorem placeMerge_eq (g : GroupNum) (t : Transaction) :
    s.placeMerge g t = { s with
      groups := s.groups.set g (placed (s.group g) (mergeInto (s.group g).filling t))
      records := s.recordsAfterPlacement g t } := s.place_eq g t (fun l => mergeInto l t)

/-- A placement by a new entry (R12, R15). -/
theorem placeNew_eq (g : GroupNum) (t : Transaction) :
    s.placeNew g t = { s with
      groups := s.groups.set g (placed (s.group g) (allocateIn (s.group g).filling t))
      records := s.recordsAfterPlacement g t } := s.place_eq g t (fun l => allocateIn l t)

/-- A refused write: its record, and the answer (R16). -/
theorem refuseWrite_eq (g : GroupNum) (cause : RefusedCause) (t : Transaction) :
    s.refuseWrite g cause t = { s with
      records := s.records.handOver (.refused g s.time cause t.addr t.lanes), port := .free, reply := some .error } := rfl

/-- The held write reconsidered: it stays, or it is the write of reason ROOM in ACTIVE that has room, and is placed (R20). -/
theorem reconsiderHeld_cases :
    (s.canPlaceHeld = false ∧ s.reconsiderHeld = s) ∨
      (∃ tk g k, s.port = .held tk g .room k ∧ s.mode = .active ∧ (s.group g).occupancy < (s.group g).quota ∧
        0 < s.freeCount ∧ s.reconsiderHeld = (s.placeNew g tk.tx).answer .okWrite) := by
  unfold reconsiderHeld
  by_cases h : s.canPlaceHeld = true
  · right
    rw [if_pos h]
    cases hp : s.port with
    | free => simp [canPlaceHeld, hp] at h
    | passing t => simp [canPlaceHeld, hp] at h
    | held tk g reason k =>
      cases reason with
      | mode => simp [canPlaceHeld, hp] at h
      | room =>
        simp only [canPlaceHeld, hp, hasRoom, Bool.and_eq_true, beq_iff_eq, decide_eq_true_eq] at h
        exact ⟨tk, g, k, rfl, h.1, h.2.1, h.2.2, by simp [placeHeld, hp]⟩
  · left
    simp [h]

/-- A write that ceases to be held passes (R22, R112). -/
theorem passHeld_eq (tk : Taken) (g : GroupNum) (r : HoldReason) (k : Nat) (h : s.port = .held tk g r k) :
    s.passHeld = { s with
      port := .passing { tk with disposition := .pass }
      arbiter := { s.arbiter with initiatorPlace := some (requestOf tk.tx) } } := by
  simp only [passHeld, h]; rfl

theorem passHeld_of_not_held (h : ∀ tk g r k, s.port ≠ .held tk g r k) : s.passHeld = s := by
  unfold passHeld
  cases hp : s.port with
  | held tk g r k => exact absurd hp (h tk g r k)
  | free => rfl
  | passing t => rfl

/-! ## The group table -/

/-- A group seals (R33). -/
theorem sealGroup_eq (g : GroupNum) :
    s.sealGroup g = s.setGroup g { s.group g with
      filling := [], outgoing := (s.group g).filling, sealTime := s.time, state := .sealed } := rfl

/-- A group enters the commit queue (R34). -/
theorem commitGroup_eq (g : GroupNum) :
    s.commitGroup g = (s.setGroup g ((s.group g).committed s.time)).enqueue g := rfl

/-- An overrun is counted and reported (R37). -/
theorem countOverrun_eq (g : GroupNum) (cause : OverrunCause) (k : Nat) :
    s.countOverrun g cause k = { s with
      groups := s.groups.set g { s.group g with overrunCount := satAdd (s.group g).overrunCount k }
      records := s.records.handOver (.overrun g s.time cause (min k Config.countMax)) } := rfl

/-- What reaching a seal point does, by the state of the group (R32). -/
theorem reachSealPoint_cases (g : GroupNum) :
    ((s.group g).state = .armed ∧ s.reachSealPoint g = s.sealGroup g) ∨
      ((s.group g).state.busy = true ∧ (s.group g).returnState = .armed ∧
        s.reachSealPoint g = (s.countOverrun g .busy 1).modifyGroup g Group.skipInstant) ∨
      s.reachSealPoint g = s := by
  unfold reachSealPoint
  cases h : (s.group g).state <;> simp [GroupState.busy]
  all_goals
    cases (s.group g).returnState <;> simp

/-! ## The drain engine -/

/-- A step is requested (R59). -/
theorem requestStep_eq (g : GroupNum) (kind : DrainKind) (step : Step) :
    s.requestStep g kind step = { s with
      engine := some { group := g, kind := kind, step := step, status := .requested }
      arbiter := { s.arbiter with drainPlace := some ((s.group g).stepRequest kind step) } } := rfl

/-- Steps 1 to 4 of a completion (R62). -/
theorem finishEpoch_eq (g : GroupNum) :
    s.finishEpoch g = { s with
      engine := none
      groups := s.groups.set g { s.group g with
        epoch := (s.group g).epoch + 1, faultStep := none, progress := (s.group g).progress.completed }
      records :=
        if (s.group g).reportCommits then
          s.records.handOver (.commitDone g ((s.group g).epoch + 1) (s.group g).progress.entriesWritten
            (s.group g).epochInstant (s.group g).progress.startTime s.time)
        else s.records } := by
  by_cases h : (s.group g).reportCommits = true
  · rw [if_pos h]
    have h1 : ((s.modifyGroup g (fun x => { x with epoch := x.epoch + 1 })).group g).reportCommits = true := by
      rw [modifyGroup_group_self]; exact h
    unfold finishEpoch
    dsimp only
    rw [if_pos h1, modifyGroup_group_self]
    simp only [modifyGroup_eq, handOver, setRecords, setEngine, setGroup, group, Table8.get_set_self, Table8.set_set]
    rfl
  · rw [if_neg h]
    have h1 : ¬ ((s.modifyGroup g (fun x => { x with epoch := x.epoch + 1 })).group g).reportCommits = true := by
      rw [modifyGroup_group_self]; exact h
    unfold finishEpoch
    dsimp only
    rw [if_neg h1]
    simp only [modifyGroup_eq, setEngine, setGroup, group, Table8.get_set_self, Table8.set_set]

/-- A step answered ERROR (R63). -/
theorem stallGroup_eq (g : GroupNum) (step : Step) (addr : Addr) :
    s.stallGroup g step addr = { s with
      groups := s.groups.set g { s.group g with faultStep := some step, faultAddr := addr, state := .stalled }
      records := s.records.handOver (.fault g s.time step addr), link := s.link.raise .stall, engine := none } := rfl

/-- The take of the head of the queue: none is due, or the number leaves the queue and its group is DRAINING (R58). -/
theorem takeHead_cases :
    (s.takeHead = none ∧ s.canTake = false) ∨
      (∃ g rest, s.canTake = true ∧ s.commitQueue = g :: rest ∧
        s.takeHead = some (g, (s.group g).takeOutcome, { s with
          commitQueue := rest
          groups := s.groups.set g { s.group g with
            state := .draining, progress := (s.group g).progress.taken s.time } })) := by
  unfold takeHead
  by_cases h : s.canTake = true
  · rw [if_pos h]
    cases hq : s.commitQueue with
    | nil => simp [canTake, hq] at h
    | cons g rest => exact .inr ⟨g, rest, h, rfl, rfl⟩
  · rw [if_neg h]
    exact .inl ⟨rfl, by simpa using h⟩

/-- What the takes do, one take at a time: none is due; a step is requested and the engine is BUSY; or the epoch completes
at the take, and the next take follows. The group table's turn comes last (R58, R62). -/
theorem takeChain_succ_cases (late : Option (GroupNum × RecordBody)) (done : List GroupNum) (n : Nat) :
    (s.canTake = false ∧ s.takeChain late done (n + 1) = s.groupTurn late done) ∨
      (∃ g rest, s.canTake = true ∧ s.commitQueue = g :: rest ∧
        let s1 := { s with
          commitQueue := rest
          groups := s.groups.set g { s.group g with
            state := .draining, progress := (s.group g).progress.taken s.time } }
        (∃ kind step, (s.group g).takeOutcome = .step kind step ∧
            s.takeChain late done (n + 1) = (s1.requestStep g kind step).groupTurn late done) ∨
          ((s.group g).takeOutcome = .completes ∧
            s.takeChain late done (n + 1) = (s1.finishEpoch g).takeChain late (g :: done) n)) := by
  obtain ⟨ht, h⟩ | ⟨g, rest, h, hq, ht⟩ := s.takeHead_cases
  · exact .inl ⟨h, by simp [takeChain, ht]⟩
  · refine .inr ⟨g, rest, h, hq, ?_⟩
    cases ho : (s.group g).takeOutcome with
    | step kind step => exact .inl ⟨kind, step, rfl, by rw [takeChain, ht, ho]⟩
    | completes => exact .inr ⟨rfl, by rw [takeChain, ht, ho]⟩

/-- The group table's turn with no epoch completed and no LATE record waiting leaves the state. -/
theorem groupTurn_nil : s.groupTurn none [] = s := by simp [groupTurn, handOverLate, forGroups, allGroups]

/-- The group table's turn, one group at a time: the LATE record that waits may be handed over, and a completed epoch's group
takes its state after it (R62, R142). -/
theorem groupTurn_induct (P : State → Prop) (late : Option (GroupNum × RecordBody)) (done : List GroupNum) (h0 : P s)
    (hp : ∀ a h b, late = some (h, b) → P a → P (a.handOver b)) (he : ∀ a g, g ∈ done → P a → P (a.afterEpoch g)) :
    P (s.groupTurn late done) := by
  have hl : ∀ a g, P a → P (a.handOverLate late g) := by
    intro a g ha
    unfold handOverLate
    split
    · exact ha
    · split
      · exact hp a _ _ rfl ha
      · exact ha
  unfold groupTurn forGroups
  generalize allGroups = l
  induction l generalizing s with
  | nil => exact h0
  | cons g l ih =>
    apply ih
    dsimp only
    split
    · rename_i hc
      exact he _ g (by simpa using hc) (hl s g h0)
    · exact hl s g h0

/-- The record unit after the held write is reconsidered: `heldLate` is the record it has taken, if any (R20, R35). -/
theorem reconsiderHeld_records :
    s.reconsiderHeld.records =
      match s.heldLate with
      | none => s.records
      | some (_, b) => s.records.handOver b := by
  unfold reconsiderHeld heldLate placeHeld
  cases hp : s.port with
  | free => simp
  | passing tk => simp
  | held tk g reason k =>
    by_cases hc : s.canPlaceHeld = true
    · simp only [hc, if_true, Bool.true_and]
      by_cases hl : (s.group g).state = .sealed ∧ (s.group g).reportLates = true
      · simp [answer, placeNew_eq, recordsAfterPlacement, hl.1, hl.2, Group.lateRecord]
      · have hb : ((s.group g).state == .sealed && (s.group g).reportLates) = false := by
          by_cases h1 : (s.group g).state = .sealed <;> simp_all
        simp [answer, placeNew_eq, recordsAfterPlacement, hl, hb]
    · simp [hc]

/-- A release where epochs complete: the state after it is that of the held write reconsidered, or, with its LATE record kept
back, that state with the record unit as it was (R20, R142). -/
theorem releaseInTurn_cases (done : List GroupNum) :
    (s.releaseInTurn done = (s.reconsiderHeld, none)) ∨
      (∃ h b d, s.heldLate = some (h, b) ∧ d ∈ done ∧ d < h ∧ s.returnJumps d = true ∧
        s.releaseInTurn done = (s.reconsiderHeld.setRecords s.records, some (h, b))) := by
  unfold releaseInTurn
  cases hl : s.heldLate with
  | none => exact .inl rfl
  | some p =>
    by_cases hd : done.any (fun d => decide (d < p.1) && s.returnJumps d) = true
    · obtain ⟨d, hm, hj⟩ := List.any_eq_true.mp hd
      simp only [Bool.and_eq_true, decide_eq_true_eq] at hj
      exact .inr ⟨p.1, p.2, d, rfl, hm, hj.1, hj.2, by simp only [hd, if_true]⟩
    · exact .inl (by simp only [hd, if_false, Bool.false_eq_true])

/-! ## The arbiter -/

theorem request_record (q : Request) : s.request .record q = s.setArbiter { s.arbiter with recordPlace := some q } := rfl
theorem request_drain (q : Request) : s.request .drain q = s.setArbiter { s.arbiter with drainPlace := some q } := rfl
theorem request_initiator (q : Request) :
    s.request .initiator q = s.setArbiter { s.arbiter with initiatorPlace := some q } := rfl

/-- The grant to the drain engine (R121, R134). -/
theorem grantTo_drain (q : Request) (h : s.arbiter.drainPlace = some q) :
    s.grantTo .drain = { s with
      arbiter := { s.arbiter with outstanding := some (.drain, q), drainPlace := none }
      engine := s.engine.map (fun c => { c with status := .outstanding })
      watch :=
        if s.arbiter.initiatorPlace = none then s.watch
        else s.watch.map (fun w => { w with grantsAhead := satAdd w.grantsAhead 1 }) } := by
  cases hi : s.arbiter.initiatorPlace <;>
    simp [grantTo, countGrantAhead, markOutstanding, Arbiter.grant, Arbiter.place, h, hi, setEngine, setArbiter]

/-- The grant to the ring writer (R121, R134). -/
theorem grantTo_record (q : Request) (h : s.arbiter.recordPlace = some q) :
    s.grantTo .record = { s with
      arbiter := { s.arbiter with outstanding := some (.record, q), recordPlace := none }
      records := { s.records with writer := s.records.writer.map (fun w => (w.1, .outstanding)) }
      watch :=
        if s.arbiter.initiatorPlace = none then s.watch
        else s.watch.map (fun w => { w with grantsAhead := satAdd w.grantsAhead 1 }) } := by
  cases hi : s.arbiter.initiatorPlace <;>
    simp [grantTo, countGrantAhead, markOutstanding, Arbiter.grant, Arbiter.place, h, hi, setRecords, setArbiter]

/-- The grant to the initiator path (R121). -/
theorem grantTo_initiator (q : Request) (h : s.arbiter.initiatorPlace = some q) :
    s.grantTo .initiator = { s with
      arbiter := { s.arbiter with outstanding := some (.initiator, q), initiatorPlace := none } } := by
  simp [grantTo, countGrantAhead, markOutstanding, Arbiter.grant, Arbiter.place, h, setArbiter]

/-- An arbitration leaves the state, spends one choice, or grants one waiting request after at most one choice (R121,
R122). -/
theorem arbitrate_cases (before : State) :
    before.arbitrate s = s ∨
      (∃ o, before.arbitrate s = s.grantTo o ∨ before.arbitrate s = s.nextChoice.grantTo o) := by
  unfold arbitrate
  by_cases hg : s.canGrant = true
  · rw [if_pos hg]
    have harr : s.grantArrivals = s ∨ (∃ o, s.grantArrivals = s.grantTo o ∨ s.grantArrivals = s.nextChoice.grantTo o) := by
      unfold grantArrivals
      split
      · exact .inl rfl
      · exact .inr ⟨_, .inl rfl⟩
      · exact .inr ⟨_, .inr rfl⟩
    split
    · unfold grantAtResponse
      split
      · exact harr
      · split
        · exact .inr ⟨_, .inl rfl⟩
        · exact .inr ⟨_, .inr rfl⟩
      · exact .inl rfl
    · exact harr
  · exact .inl (by simp [hg])

end State

end Sys2Proof.Machine
end

