-- ==== Sys2Proof/Laws/Settle.lean ====
section
/-! SUPPORT. What follows a happening at once: nothing where nothing is due, and what it leaves unchanged. -/

namespace Sys2Proof.Machine

namespace State

variable (s before : State)

theorem takeAll_of_not_canTake (h : s.canTake = false) : s.takeAll none [] = s := by
  unfold takeAll
  cases s.commitQueue.length <;> simp [takeChain, takeHead, h, groupTurn_nil]

theorem takeNext_of_not_canTake (h : s.canTake = false) : s.takeNext = s := by
  rw [takeNext, takeAll_of_not_canTake s h, takeAll_of_not_canTake s h]

theorem settleFlush_of_not_done (h : s.flushDone = false) : s.settleFlush = s := by simp [settleFlush, h]

theorem settleSoftReset_of_not_done (h : s.softResetDone = false) : s.settleSoftReset = s := by
  simp [settleSoftReset, h]

theorem settleWriter_of_not_begin (h : s.canBeginRecord = false) : s.settleWriter = s := by simp [settleWriter, h]

theorem arbitrate_of_no_grant (h : s.canGrant = true → s.arbiter.waiting = []) : before.arbitrate s = s := by
  unfold arbitrate
  by_cases hc : s.canGrant = true
  · have hw := h hc
    simp [hc, grantAtResponse, inPlace, grantArrivals, hw]
  · simp [hc]

/-- Where nothing is due after a happening, only the IRQ line follows. -/
theorem settle_of_nothingDue (h : NothingDue s) : before.settle s = s.refreshIrq := by
  obtain ⟨ht, hf, hr, hw, hg⟩ := h
  simp [settle, takeNext_of_not_canTake s ht, settleFlush_of_not_done s hf, settleSoftReset_of_not_done s hr,
    settleWriter_of_not_begin s hw, arbitrate_of_no_grant s before hg]

theorem refreshIrq_of_irq (h : s.irq = irqCondition s.records s.link.flags) : s.refreshIrq = s := by
  cases s; simp_all [refreshIrq]

/-- A settled state stays as it is. -/
theorem settle_of_settled (h : Settled s) : before.settle s = s := by
  rw [settle_of_nothingDue s before h.1, refreshIrq_of_irq s h.2]

end State

/-- What is due depends on the engine, the commit queue, the mode, the groups, the arbiter and the record unit alone. -/
theorem NothingDue.congr {s t : State} (h : NothingDue s) (he : t.engine = s.engine)
    (hq : t.commitQueue = s.commitQueue) (hm : t.mode = s.mode) (hg : t.groups = s.groups)
    (ha : t.arbiter = s.arbiter) (hr : t.records = s.records) : NothingDue t := by
  obtain ⟨h1, h2, h3, h4, h5⟩ := h
  refine ⟨?_, ?_, ?_, ?_, ?_⟩
  · simpa [State.canTake, he, hq, hm] using h1
  · simpa only [State.flushDone, he, hq, hm, hg] using h2
  · simpa only [State.softResetDone, hm, ha] using h3
  · simpa only [State.canBeginRecord, hm, hr] using h4
  · simpa only [State.canGrant, hm, ha] using h5

/-- Outside QUIESCING and RESETTING what is due depends on the engine, the commit queue, the arbiter and the record unit
alone. -/
theorem NothingDue.of_open_mode {s t : State} (h : NothingDue s) (hs : s.mode ≠ .resetting)
    (ht : t.mode ≠ .resetting) (hq : t.mode ≠ .quiescing) (he : t.engine = s.engine)
    (hc : t.commitQueue = s.commitQueue) (ha : t.arbiter = s.arbiter) (hr : t.records = s.records) :
    NothingDue t := by
  obtain ⟨h1, _, _, h4, h5⟩ := h
  refine ⟨?_, ?_, ?_, ?_, ?_⟩
  · simpa [State.canTake, he, hc, hs, ht] using h1
  · simp [State.flushDone, hq]
  · simp [State.softResetDone, ht]
  · simpa [State.canBeginRecord, hr, hs, ht] using h4
  · simpa [State.canGrant, ha, hs, ht] using h5

end Sys2Proof.Machine
end

