-- ==== Sys2Proof/Laws/Frame.lean ====
section
/-! SUPPORT. Frames: a byte clocked bit by bit is the byte exchanged; what the shifter holds after the host bytes of a
command; what a whole frame of the right length does. -/

namespace Sys2Proof.Machine

@[simp] theorem bitsOf_nil : bitsOf [] = [] := rfl

@[simp] theorem bitsOf_cons (b : Byte) (bs : List Byte) : bitsOf (b :: bs) = bitsOfByte b ++ bitsOf bs := rfl

@[simp] theorem bitsOf_append (as bs : List Byte) : bitsOf (as ++ bs) = bitsOf as ++ bitsOf bs := by
  simp [bitsOf]

/-- The eight bits of a byte as the link carries them give the byte back (R180). -/
theorem byteOfBits_bitsOfByte (b : Byte) : byteOfBits (bitsOfByte b) = b := by
  revert b; decide

namespace Shifter

/-- A device byte is a matter of the phase, the snapshot, the parameters and device byte 0. -/
theorem deviceByte_congr {f g : Shifter} (hp : g.phase = f.phase) (hs : g.snapshot = f.snapshot)
    (hq : g.params = f.params) (h0 : g.byte0 = f.byte0) (j : Nat) : g.deviceByte j = f.deviceByte j := by
  match j with
  | 0 => exact h0
  | 1 => rfl
  | n + 2 => simp [deviceByte, hp, hs, hq]

/-- Bit `i` of the bits shown from here on, while no byte completes. -/
def laterBit (f : Shifter) (i : Nat) : Bool := (f.deviceByte ((f.bits + i) / 8)).getLsbD (7 - (f.bits + i) % 8)

/-- Bits that complete no byte are kept, and each shows the next bit of the device (R180). -/
theorem clockBit_partial (s : State) :
    ∀ (l : List Bool) (f : Shifter), f.unfinished.length + l.length < 8 →
      l.foldl (Shifter.clockBit s) f = { f with
        unfinished := f.unfinished ++ l, bits := f.bits + l.length
        sent := f.sent ++ (List.range l.length).map f.laterBit } := by
  intro l
  induction l with
  | nil => intro f _; simp
  | cons b rest ih =>
    intro f h
    simp only [List.length_cons] at h
    have hstep : Shifter.clockBit s f b = { f with
        unfinished := f.unfinished ++ [b], bits := f.bits + 1, sent := f.sent ++ [f.shownBit] } := by
      simp [clockBit, show f.unfinished.length < 7 by omega]
    rw [List.foldl_cons, hstep, ih _ (by simp; omega)]
    simp only [List.length_cons, List.range_succ_eq_map, List.map_cons, List.map_map, Shifter.mk.injEq,
      List.append_assoc, List.singleton_append, true_and]
    refine ⟨by omega, ?_⟩
    congr 2
    apply List.map_congr_left
    intro i _
    simp only [laterBit, Function.comp, Nat.succ_eq_add_one, show f.bits + 1 + i = f.bits + (i + 1) by omega]
    congr 1

/-- A byte clocked bit by bit is the byte exchanged (R180). -/
theorem clockBit_byte (s : State) (f : Shifter) (b : Byte) (hu : f.unfinished = []) (hb : f.bits % 8 = 0) :
    (bitsOfByte b).foldl (Shifter.clockBit s) f = f.exchange s b := by
  have hsplit : bitsOfByte b = (bitsOfByte b).take 7 ++ [b.getLsbD 0] := rfl
  rw [hsplit, List.foldl_append, clockBit_partial s _ f (by simp [hu, bitsOfByte])]
  have hlen : ((bitsOfByte b).take 7).length = 7 := rfl
  simp only [hlen, List.foldl_cons, List.foldl_nil, clockBit, hu, List.nil_append, Nat.lt_irrefl, if_false, ← hsplit,
    byteOfBits_bitsOfByte]
  have hd : ∀ k < 8, (f.bits + k) / 8 = f.bits / 8 := by omega
  have hm : ∀ k < 8, (f.bits + k) % 8 = k := by omega
  simp only [exchange, shownBit]
  have hsent : f.sent ++ (List.range 7).map f.laterBit ++ [(f.deviceByte (f.bits / 8)).getLsbD 0] =
      f.sent ++ bitsOfByte (f.deviceByte (f.bits / 8)) := by
    simp [List.range_succ, laterBit, hd, hm, bitsOfByte, hb]
  have hdev : ∀ l n t, Shifter.deviceByte { f with unfinished := l, bits := n, sent := t } (f.bits / 8) =
      f.deviceByte (f.bits / 8) := fun _ _ _ => deviceByte_congr rfl rfl rfl rfl _
  rw [hd 7 (by omega), hm 7 (by omega), Nat.sub_self, hdev, hsent]
  obtain ⟨phase, bits, unfinished, code, params, snapshot, byte0, sent⟩ := f
  cases phase <;> rfl

/-- The parameter bytes of a write command bring the shifter to EXCESS, its parameters complete; 00H is sent. -/
theorem exchange_write_params (s : State) (code : Byte) (n : Nat) (hc : commandForm code = some (.write n)) :
    ∀ (bs : List Byte) (f : Shifter), f.phase = .parameters → f.code = some code →
      f.bits = 8 * (f.params.length + 1) → bs.length + f.params.length = n → bs ≠ [] →
      bs.foldl (Shifter.exchange s) f =
        { f with
          phase := .excess, params := f.params ++ bs, bits := f.bits + 8 * bs.length, unfinished := []
          sent := f.sent ++ bitsOf (List.replicate bs.length 0) } := by
  intro bs
  induction bs with
  | nil => intro f _ _ _ _ h; exact absurd rfl h
  | cons b rest ih =>
    intro f hp hcode hbits hlen _
    have hj : f.bits / 8 = f.params.length + 1 := by omega
    have hdev : ∀ j, j ≠ 0 → f.deviceByte j = 0 := by
      intro j hj
      match j, hj with
      | 1, _ => rfl
      | k + 2, _ => simp [deviceByte, hp]
    simp only [List.foldl_cons]
    by_cases hrest : rest = []
    · subst hrest
      simp only [List.length_cons, List.length_nil] at hlen
      simp [exchange, takeByte, hp, hcode, phaseAfterParam, hc, hj, hdev]
      omega
    · have hpos : 0 < rest.length := List.length_pos_iff.mpr hrest
      have hlen' : f.params.length + 1 < n := by simp at hlen; omega
      have hstep : Shifter.exchange s f b =
          { f with params := f.params ++ [b], bits := f.bits + 8, unfinished := [], sent := f.sent ++ bitsOfByte 0 } := by
        simp [exchange, takeByte, hp, hcode, phaseAfterParam, hc, hj, hdev, hlen']
      rw [hstep, ih _ (by simp [hp]) (by simp [hcode]) (by simp [hbits]; omega) (by simp at hlen ⊢; omega) hrest]
      simp [List.replicate_succ]
      omega

/-- In DATA every further byte is a clocking byte: the read data is sent, then 00H. -/
theorem exchange_data (s : State) :
    ∀ (bs : List Byte) (f : Shifter) (k : Nat), f.phase = .data → f.unfinished = [] → f.bits = 8 * k →
      bs.foldl (Shifter.exchange s) f =
        { f with
          bits := 8 * (k + bs.length)
          sent := f.sent ++ bitsOf ((List.range bs.length).map (fun i => f.deviceByte (k + i))) } := by
  intro bs
  induction bs with
  | nil => intro f k _ _ hb; simp [← hb]
  | cons b rest ih =>
    intro f k hp hu hb
    have hk : 8 * k / 8 = k := by omega
    have hstep : Shifter.exchange s f b =
        { f with bits := 8 * (k + 1), sent := f.sent ++ bitsOfByte (f.deviceByte k) } := by
      simp only [exchange, takeByte, hp, hb, hk, hu]
      simp [Nat.mul_add]
    simp only [List.foldl_cons, hstep]
    rw [ih { f with bits := 8 * (k + 1), sent := f.sent ++ bitsOfByte (f.deviceByte k) } (k + 1) hp hu rfl]
    simp only [List.length_cons, List.range_succ_eq_map, List.map_cons, List.map_map, Shifter.mk.injEq, true_and]
    refine ⟨by omega, ?_⟩
    simp only [List.append_assoc, bitsOf_cons, Nat.add_zero, List.append_cancel_left_eq]
    congr 1
    apply List.map_congr_left
    intro i _
    have : k + 1 + i = k + (i + 1) := by omega
    simp only [Function.comp, this, Nat.succ_eq_add_one]
    cases k + (i + 1) <;> rfl

end Shifter

namespace State

variable (s : State)

/-- The shifter after select fell on a ready link and the command byte came in. -/
def shifterAfterCode (code : Byte) : Shifter :=
  { phase := phaseAfterCode code, bits := 8, unfinished := [], code := some code, params := []
    snapshot := s.snapshot code, byte0 := s.link.lastResult.code, sent := bitsOf [s.link.lastResult.code] }

theorem selectFall_of_ready (h : LinkReady s) :
    s.selectFall = s.setLink { s.link with selectLow := true, shifter := Shifter.opened s } := by
  simp [selectFall, h.2.2]

theorem snapshot_setLink_shifter (f : Shifter) (b : Bool) (code : Byte) :
    (s.setLink { s.link with selectLow := b, shifter := f }).snapshot code = s.snapshot code := rfl

/-- Select falls and the bytes of a frame of command `code` are clocked in. -/
theorem clockBytes_of_ready (h : LinkReady s) (code : Byte) (ps : List Byte) :
    (s.selectFall).clockBytes (code :: ps) =
      s.setLink { s.link with
        selectLow := true
        shifter := ps.foldl (Shifter.exchange (s.setLink { s.link with selectLow := true, shifter := Shifter.opened s }))
          (s.shifterAfterCode code) } := by
  rw [selectFall_of_ready s h]
  obtain ⟨hr, hm, hl⟩ := h
  have hop : (s.setLink { s.link with selectLow := true, shifter := Shifter.opened s }).frameOpen = true := by
    simp [frameOpen, Shifter.opened, hm]
  unfold clockBytes
  rw [if_pos hop]
  simp only [setShifter, setLink_link, List.foldl_cons]
  have : Shifter.exchange (s.setLink { s.link with selectLow := true, shifter := Shifter.opened s })
      (Shifter.opened s) code = s.shifterAfterCode code := by
    simp [Shifter.exchange, Shifter.takeByte, Shifter.opened, hm, shifterAfterCode, Shifter.deviceByte, Shifter.idle,
      snapshot_setLink_shifter]
  rw [this]
  rfl

end State

namespace Command

variable (c : Command) (s : State)

/-- Select rises at the end of a frame that the checks of R183 leave to the command. -/
theorem rise_run (f : Shifter) (hf : s.link.shifter = f) (hcode : f.code = some c.code) (hp : f.phase ≠ .idle)
    (hb : f.bits ≠ 0) (hj : f.judge = none) : c.rise s = c.run f.params s.selectRise := by
  simp [rise, hf, Shifter.otherCommand, hcode, hp, hb, hj]

/-- Select rises at the end of a frame that the checks of R183 refuse. -/
theorem rise_refuse (f : Shifter) (r : Result) (hf : s.link.shifter = f) (hcode : f.code = some c.code)
    (hp : f.phase ≠ .idle) (hb : f.bits ≠ 0) (hj : f.judge = some r) : c.rise s = s.selectRise.refuseFrame r := by
  simp [rise, hf, Shifter.otherCommand, hcode, hp, hb, hj]

/-- A whole frame of a write command with its parameter bytes, on a ready link: the command's own checks and effect, with
the frame's bytes sent. -/
theorem whole_write (h : LinkReady s) (n : Nat) (hc : commandForm c.code = some (.write n)) (ps : List Byte)
    (hlen : ps.length = n) :
    c.whole ps s = c.run ps (s.framed s.link.lastResult (s.writeSent n)) := by
  have hl := h.2.2
  rw [whole, if_neg (by simp [hl]), State.clockBytes_of_ready s h]
  have hfold : ps.foldl (Shifter.exchange (s.setLink { s.link with selectLow := true, shifter := Shifter.opened s }))
      (s.shifterAfterCode c.code) =
      { s.shifterAfterCode c.code with
        phase := .excess, params := ps, bits := 8 + 8 * ps.length, sent := bitsOf (s.writeSent n) } := by
    by_cases hn : n = 0
    · subst hn
      have : ps = [] := List.length_eq_zero_iff.mp hlen
      subst this
      simp [State.shifterAfterCode, phaseAfterCode, hc, State.writeSent]
    · have hps : ps ≠ [] := by intro h0; simp [h0] at hlen; omega
      rw [Shifter.exchange_write_params _ c.code n hc ps _
        (by simp [State.shifterAfterCode, phaseAfterCode, hc, hn]) rfl rfl (by simpa [State.shifterAfterCode] using hlen)
        hps]
      simp [State.shifterAfterCode, State.writeSent, hlen]
  rw [hfold, rise_run c _ _ rfl rfl (by simp) (by simp)]
  · rfl
  · have h1 : (8 + 8 * ps.length) / 8 = n + 1 := by omega
    have h2 : (8 + 8 * ps.length) % 8 = 0 := by omega
    simp [Shifter.judge, State.shifterAfterCode, hc, wrongLength, h1, h2]

/-- A whole frame of a read command without parameters, on a ready link: it is answered from the snapshot taken at the
command byte. -/
theorem whole_read (h : LinkReady s) (hc : commandForm c.code = some (.read 0)) (d : List Byte)
    (hd : s.snapshot c.code = .whole d) (ps : List Byte) :
    c.whole ps s = c.run [] (s.framed s.link.lastResult (s.readSent d ps.length)) := by
  have hl := h.2.2
  rw [whole, if_neg (by simp [hl]), State.clockBytes_of_ready s h]
  have hphase : (s.shifterAfterCode c.code).phase = .data := by simp [State.shifterAfterCode, phaseAfterCode, hc]
  have hph : phaseAfterCode c.code = .data := hphase
  have hdev : ∀ i, (s.shifterAfterCode c.code).deviceByte (1 + i) = s.readByte d (1 + i) := by
    intro i
    cases i with
    | zero => rfl
    | succ k =>
      rw [show 1 + (k + 1) = k + 2 by omega]
      simp [Shifter.deviceByte, hph, State.readByte, State.shifterAfterCode, hd, Snapshot.data]
  rw [Shifter.exchange_data _ ps (s.shifterAfterCode c.code) 1 hphase rfl rfl,
    rise_run c _ _ rfl rfl (by simp [hph, State.shifterAfterCode]) (by simp)]
  · have hsent : (s.shifterAfterCode c.code).sent ++
        bitsOf ((List.range ps.length).map (fun i => (s.shifterAfterCode c.code).deviceByte (1 + i))) =
          bitsOf (s.readSent d ps.length) := by
      simp only [hdev, State.readSent, List.range_succ_eq_map, List.map_cons, List.map_map]
      simp [State.shifterAfterCode, State.readByte, Function.comp_def, Nat.add_comm]
    rw [hsent]
    simp [State.selectRise, State.framed, State.framedBits, hph, State.setLink, State.shifterAfterCode]
  · have h1 : 8 * (1 + ps.length) / 8 = ps.length + 1 := by omega
    have h2 : 8 * (1 + ps.length) % 8 = 0 := by omega
    simp [Shifter.judge, hphase, h2, h1]
    simp [State.shifterAfterCode, hc, wrongLength]

/-- A whole frame of a read command with one parameter byte, on a ready link: it is answered from the snapshot, by the
number in the parameter byte. -/
theorem whole_read_number (h : LinkReady s) (hc : commandForm c.code = some (.read 1)) (n : Byte) (ps : List Byte) :
    c.whole (n :: ps) s =
      c.run [n] (s.framed s.link.lastResult (s.readSent ((s.snapshot c.code).data [n]) (ps.length + 1))) := by
  have hl := h.2.2
  rw [whole, if_neg (by simp [hl]), State.clockBytes_of_ready s h]
  have hph : phaseAfterCode c.code = .parameters := by simp [phaseAfterCode, hc]
  have hpp : phaseAfterParam c.code 1 = .data := by simp [phaseAfterParam, hc]
  let f1 : Shifter :=
    { s.shifterAfterCode c.code with
      phase := .data, bits := 16, params := [n], sent := bitsOf [s.link.lastResult.code, 0] }
  have hfirst : Shifter.exchange
      (s.setLink { s.link with selectLow := true, shifter := Shifter.opened s }) (s.shifterAfterCode c.code) n = f1 := by
    simp [Shifter.exchange, Shifter.takeByte, State.shifterAfterCode, hph, hpp, Shifter.deviceByte, f1]
  have hdev : ∀ i, f1.deviceByte (2 + i) = s.readByte ((s.snapshot c.code).data [n]) (2 + i) := by
    intro i
    rw [Nat.add_comm 2 i]
    simp [Shifter.deviceByte, State.readByte, f1, State.shifterAfterCode]
  rw [List.foldl_cons, hfirst, Shifter.exchange_data _ ps f1 2 rfl rfl rfl, rise_run c _ _ rfl rfl (by simp [f1]) (by simp)]
  · have hsent : f1.sent ++ bitsOf ((List.range ps.length).map (fun i => f1.deviceByte (2 + i))) =
          bitsOf (s.readSent ((s.snapshot c.code).data [n]) (ps.length + 1)) := by
      simp only [hdev, State.readSent, List.range_succ_eq_map, List.map_cons, List.map_map]
      simp only [f1, bitsOf_cons, bitsOf_nil, List.append_nil, List.append_assoc, State.readByte, Function.comp_def]
      congr 3
      apply List.map_congr_left
      intro a _
      rw [show 2 + a = a + 2 by omega]
    rw [hsent]
    simp [State.selectRise, State.framed, State.framedBits, State.setLink, f1]
  · have h1 : 8 * (2 + ps.length) / 8 = ps.length + 2 := by omega
    have h2 : 8 * (2 + ps.length) % 8 = 0 := by omega
    simp [Shifter.judge, h2, h1, f1]
    simp [State.shifterAfterCode, hc, wrongLength]

end Command

end Sys2Proof.Machine
end

