-- ==== Sys2Proof/Laws/Keeps.lean ====
section
/-! SUPPORT. What no operation of the groups, the drain engine, the ring writer, the arbiter and the resets of a running device
touches: whether the device runs, the timebase, and the queue of commands. -/

namespace Sys2Proof.Machine

/-- The run state, the timebase and the queue of commands are the same. -/
abbrev Keeps (s t : State) : Prop := t.run = s.run ∧ t.timebase = s.timebase ∧ t.pending = s.pending

theorem Keeps.refl (s : State) : Keeps s s := ⟨rfl, rfl, rfl⟩

theorem Keeps.trans {s t u : State} (h : Keeps s t) (k : Keeps t u) : Keeps s u :=
  ⟨k.1.trans h.1, k.2.1.trans h.2.1, k.2.2.trans h.2.2⟩

namespace State

variable (s : State)

theorem keeps_placeNew (g : GroupNum) (t : Transaction) : Keeps s (s.placeNew g t) := by
  rw [placeNew_eq]; exact ⟨rfl, rfl, rfl⟩

theorem keeps_reconsiderHeld : Keeps s s.reconsiderHeld := by
  obtain ⟨-, h⟩ | ⟨tk, g, k, -, -, -, -, h⟩ := s.reconsiderHeld_cases
  · rw [h]; exact Keeps.refl s
  · rw [h]; exact s.keeps_placeNew g tk.tx

theorem keeps_releaseInTurn (done : List GroupNum) : Keeps s (s.releaseInTurn done).1 := by
  obtain h | ⟨_, _, _, -, -, -, -, h⟩ := s.releaseInTurn_cases done <;> rw [h]
  · exact s.keeps_reconsiderHeld
  · exact s.keeps_reconsiderHeld

theorem keeps_passHeld : Keeps s s.passHeld := by
  unfold passHeld; split <;> exact ⟨rfl, rfl, rfl⟩

theorem keeps_checkPassedSeal (g : GroupNum) : Keeps s (s.checkPassedSeal g) := by
  unfold checkPassedSeal
  dsimp only
  split
  · exact Keeps.refl s
  · split
    · split <;> exact ⟨rfl, rfl, rfl⟩
    · exact Keeps.refl s

theorem keeps_takeReturnState (g : GroupNum) : Keeps s (s.takeReturnState g) := by
  unfold takeReturnState
  dsimp only
  split
  · split
    · exact Keeps.trans (t := s.modifyGroup g _) ⟨rfl, rfl, rfl⟩ (keeps_checkPassedSeal _ g)
    · exact ⟨rfl, rfl, rfl⟩
  · exact ⟨rfl, rfl, rfl⟩

theorem keeps_flushAfter (g : GroupNum) : Keeps s (s.flushAfter g) := by
  unfold flushAfter; split <;> exact ⟨rfl, rfl, rfl⟩

theorem keeps_afterEpoch (g : GroupNum) : Keeps s (s.afterEpoch g) := by
  unfold afterEpoch
  split
  · exact s.keeps_flushAfter g
  · exact s.keeps_takeReturnState g

theorem keeps_finishEpoch (g : GroupNum) : Keeps s (s.finishEpoch g) := by
  rw [finishEpoch_eq]; exact ⟨rfl, rfl, rfl⟩

theorem keeps_groupTurn (late : Option (GroupNum × RecordBody)) (done : List GroupNum) : Keeps s (s.groupTurn late done) :=
  s.groupTurn_induct (Keeps s) late done (Keeps.refl s) (fun _ _ _ _ h => h.trans ⟨rfl, rfl, rfl⟩)
    (fun a g _ h => h.trans (a.keeps_afterEpoch g))

theorem keeps_takeChain (late : Option (GroupNum × RecordBody)) (n : Nat) :
    ∀ (s : State) (done : List GroupNum), Keeps s (s.takeChain late done n) := by
  induction n with
  | zero => exact fun s done => s.keeps_groupTurn late done
  | succ n ih =>
    intro s done
    obtain ⟨-, h⟩ | ⟨g, rest, -, -, ⟨kind, step, -, h⟩ | ⟨-, h⟩⟩ := s.takeChain_succ_cases late done n
    · rw [h]; exact s.keeps_groupTurn late done
    · rw [h]
      refine Keeps.trans ?_ (keeps_groupTurn _ late done)
      exact ⟨rfl, rfl, rfl⟩
    · rw [h]
      refine Keeps.trans ?_ (ih _ _)
      exact Keeps.trans (t := { s with commitQueue := rest, groups := _ }) ⟨rfl, rfl, rfl⟩ (keeps_finishEpoch _ g)

theorem keeps_takeNext : Keeps s s.takeNext := (keeps_takeChain _ _ s _).trans (keeps_takeChain _ _ _ _)

theorem keeps_settleFlush : Keeps s s.settleFlush := by
  unfold settleFlush
  split
  · exact Keeps.trans (t := s.setMode .bypass) ⟨rfl, rfl, rfl⟩ (keeps_passHeld _)
  · exact Keeps.refl s

theorem keeps_settleSoftReset : Keeps s s.settleSoftReset := by
  unfold settleSoftReset
  split
  · unfold completeSoftReset requestKept
    dsimp only
    split <;> exact ⟨rfl, rfl, rfl⟩
  · exact Keeps.refl s

theorem keeps_requestRecordWord (k slot : Nat) (seq : BitVec 32) : Keeps s (s.requestRecordWord k slot seq) := by
  obtain ⟨-, h⟩ | ⟨q, rest, -, h⟩ := s.requestRecordWord_cases k slot seq <;> rw [h] <;> exact ⟨rfl, rfl, rfl⟩

theorem keeps_settleWriter : Keeps s s.settleWriter := by
  unfold settleWriter
  split
  · exact s.keeps_requestRecordWord _ _ _
  · exact Keeps.refl s

theorem keeps_grantTo (o : Owner) : Keeps s (s.grantTo o) := by
  cases o <;> (unfold grantTo countGrantAhead; split <;> exact ⟨rfl, rfl, rfl⟩)

theorem keeps_arbitrate (before : State) : Keeps s (before.arbitrate s) := by
  obtain h | ⟨o, h | h⟩ := s.arbitrate_cases before
  · rw [h]; exact Keeps.refl s
  · rw [h]; exact s.keeps_grantTo o
  · rw [h]; exact Keeps.trans (t := s.nextChoice) ⟨rfl, rfl, rfl⟩ (keeps_grantTo _ o)

/-- What follows a happening at once leaves the run state, the timebase and the queue of commands. -/
theorem keeps_settle (before : State) : Keeps s (before.settle s) := by
  have h := Keeps.trans (Keeps.trans (Keeps.trans (Keeps.trans s.keeps_takeNext (keeps_settleFlush _))
    (keeps_settleSoftReset _)) (keeps_settleWriter _)) (keeps_arbitrate _ before)
  exact Keeps.trans h ⟨rfl, rfl, rfl⟩

end State

end Sys2Proof.Machine
end

