-- ==== Sys2Proof/Laws/PerInstr.lean ====
section
/-! SUPPORT. Per row of the opcode table: the command code its frame carries, and that the code of a well-formed row is one of
TABLE 11(b) exactly where the row is not UNKNOWN_COMMAND. -/

namespace Sys2Proof.Laws.Rows

open Sys2Proof.Machine

/-- The command code that the frame of a row carries (TABLE 11(b)). -/
def codeOf : Instr → Option Byte
  | .identify _ => some 0x01#8
  | .statusRead _ => some 0x02#8
  | .statusClear _ => some 0x03#8
  | .modeSet _ => some 0x04#8
  | .softReset _ => some 0x05#8
  | .tickSet _ => some 0x08#8
  | .timeSet _ => some 0x09#8
  | .timeRead _ => some 0x0A#8
  | .cycleSet _ => some 0x0B#8
  | .windowSet _ => some 0x10#8
  | .windowRead _ => some 0x11#8
  | .groupSet _ => some 0x20#8
  | .groupArm _ => some 0x21#8
  | .groupDisarm _ => some 0x22#8
  | .groupCommitNow _ => some 0x23#8
  | .groupDiscard _ => some 0x24#8
  | .groupOff _ => some 0x25#8
  | .groupRead _ => some 0x26#8
  | .groupRetry _ => some 0x27#8
  | .groupAbandon _ => some 0x28#8
  | .ringSet _ => some 0x30#8
  | .ringRead _ => some 0x31#8
  | .unknownCommand code _ => some code
  | .frameError _ | .upstreamTransactionTake _ | .tick | .sealPointReached _ | .commitInstantReached _
  | .holdExpiry | .syncEdge _ | .freezeBegin | .freezeEnd | .hardwareReset | .resetRise | .powerOn _ | .grant
  | .drainTake | .recordBegin | .heldWritePlacement | .flushComplete | .softResetCompletion
  | .drainStepResponse _ | .recordWordResponse _ | .headWordResponse _ | .initiatorResponse _ _ => none

/-- The row is UNKNOWN_COMMAND. -/
def isUnknown (i : Instr) : Prop := ∃ code ev, i = .unknownCommand code ev

/-- The codes that `WellFormed` lists are those that `Operands` gives a form. -/
theorem definedCodes_iff : ∀ c : Byte, definedCodes.contains c = (commandForm c).isSome := by decide

/-- A well-formed row that carries a command code carries one with a form exactly where it is not UNKNOWN_COMMAND (R183). -/
def Statement (i : Instr) : Prop :=
  i.wf = true → ∀ c, codeOf i = some c → ((commandForm c).isSome = true ↔ ¬ isUnknown i)

theorem of_code {i : Instr} {c : Byte} (hc : codeOf i = some c) (hf : (commandForm c).isSome = true)
    (hu : ¬ isUnknown i) : Statement i := by
  intro _ d hd
  have : c = d := Option.some.inj (hc.symm.trans hd)
  subst this
  exact ⟨fun _ => hu, fun _ => hf⟩

theorem of_no_code {i : Instr} (hc : codeOf i = none) : Statement i := by
  intro _ d hd
  rw [hc] at hd
  cases hd

theorem identify (ev : FrameEvent) : Statement (.identify ev) :=
  of_code rfl rfl (fun ⟨_, _, h⟩ => nomatch h)

theorem statusRead (ev : FrameEvent) : Statement (.statusRead ev) :=
  of_code rfl rfl (fun ⟨_, _, h⟩ => nomatch h)

theorem statusClear (ev : FrameEvent) : Statement (.statusClear ev) :=
  of_code rfl rfl (fun ⟨_, _, h⟩ => nomatch h)

theorem modeSet (ev : FrameEvent) : Statement (.modeSet ev) :=
  of_code rfl rfl (fun ⟨_, _, h⟩ => nomatch h)

theorem softReset (ev : FrameEvent) : Statement (.softReset ev) :=
  of_code rfl rfl (fun ⟨_, _, h⟩ => nomatch h)

theorem tickSet (ev : FrameEvent) : Statement (.tickSet ev) :=
  of_code rfl rfl (fun ⟨_, _, h⟩ => nomatch h)

theorem timeSet (ev : FrameEvent) : Statement (.timeSet ev) :=
  of_code rfl rfl (fun ⟨_, _, h⟩ => nomatch h)

theorem timeRead (ev : FrameEvent) : Statement (.timeRead ev) :=
  of_code rfl rfl (fun ⟨_, _, h⟩ => nomatch h)

theorem cycleSet (ev : FrameEvent) : Statement (.cycleSet ev) :=
  of_code rfl rfl (fun ⟨_, _, h⟩ => nomatch h)

theorem windowSet (ev : FrameEvent) : Statement (.windowSet ev) :=
  of_code rfl rfl (fun ⟨_, _, h⟩ => nomatch h)

theorem windowRead (ev : FrameEvent) : Statement (.windowRead ev) :=
  of_code rfl rfl (fun ⟨_, _, h⟩ => nomatch h)

theorem groupSet (ev : FrameEvent) : Statement (.groupSet ev) :=
  of_code rfl rfl (fun ⟨_, _, h⟩ => nomatch h)

theorem groupArm (ev : FrameEvent) : Statement (.groupArm ev) :=
  of_code rfl rfl (fun ⟨_, _, h⟩ => nomatch h)

theorem groupDisarm (ev : FrameEvent) : Statement (.groupDisarm ev) :=
  of_code rfl rfl (fun ⟨_, _, h⟩ => nomatch h)

theorem groupCommitNow (ev : FrameEvent) : Statement (.groupCommitNow ev) :=
  of_code rfl rfl (fun ⟨_, _, h⟩ => nomatch h)

theorem groupDiscard (ev : FrameEvent) : Statement (.groupDiscard ev) :=
  of_code rfl rfl (fun ⟨_, _, h⟩ => nomatch h)

theorem groupOff (ev : FrameEvent) : Statement (.groupOff ev) :=
  of_code rfl rfl (fun ⟨_, _, h⟩ => nomatch h)

theorem groupRead (ev : FrameEvent) : Statement (.groupRead ev) :=
  of_code rfl rfl (fun ⟨_, _, h⟩ => nomatch h)

theorem groupRetry (ev : FrameEvent) : Statement (.groupRetry ev) :=
  of_code rfl rfl (fun ⟨_, _, h⟩ => nomatch h)

theorem groupAbandon (ev : FrameEvent) : Statement (.groupAbandon ev) :=
  of_code rfl rfl (fun ⟨_, _, h⟩ => nomatch h)

theorem ringSet (ev : FrameEvent) : Statement (.ringSet ev) :=
  of_code rfl rfl (fun ⟨_, _, h⟩ => nomatch h)

theorem ringRead (ev : FrameEvent) : Statement (.ringRead ev) :=
  of_code rfl rfl (fun ⟨_, _, h⟩ => nomatch h)

theorem unknownCommand (code : Byte) (ev : FrameEvent) : Statement (.unknownCommand code ev) := by
  intro hw c hc
  have hcc : code = c := Option.some.inj hc
  subst hcc
  have hn : definedCodes.contains code = false := by simpa [Instr.wf] using hw
  rw [definedCodes_iff] at hn
  exact ⟨fun h => (by rw [hn] at h; cases h), fun h => absurd ⟨code, ev, rfl⟩ h⟩

theorem frameError (bits : List Bool) : Statement (.frameError bits) := of_no_code rfl

theorem upstreamTransactionTake (t : Transaction) : Statement (.upstreamTransactionTake t) := of_no_code rfl

theorem tick : Statement .tick := of_no_code rfl

theorem sealPointReached (g : GroupNum) : Statement (.sealPointReached g) := of_no_code rfl

theorem commitInstantReached (g : GroupNum) : Statement (.commitInstantReached g) := of_no_code rfl

theorem holdExpiry : Statement .holdExpiry := of_no_code rfl

theorem syncEdge (e : Edge) : Statement (.syncEdge e) := of_no_code rfl

theorem freezeBegin : Statement .freezeBegin := of_no_code rfl

theorem freezeEnd : Statement .freezeEnd := of_no_code rfl

theorem hardwareReset : Statement .hardwareReset := of_no_code rfl

theorem resetRise : Statement .resetRise := of_no_code rfl

theorem powerOn (runs : Bool) : Statement (.powerOn runs) := of_no_code rfl

theorem grant : Statement .grant := of_no_code rfl

theorem drainTake : Statement .drainTake := of_no_code rfl

theorem recordBegin : Statement .recordBegin := of_no_code rfl

theorem heldWritePlacement : Statement .heldWritePlacement := of_no_code rfl

theorem flushComplete : Statement .flushComplete := of_no_code rfl

theorem softResetCompletion : Statement .softResetCompletion := of_no_code rfl

theorem drainStepResponse (ok : Bool) : Statement (.drainStepResponse ok) := of_no_code rfl

theorem recordWordResponse (ok : Bool) : Statement (.recordWordResponse ok) := of_no_code rfl

theorem headWordResponse (ok : Bool) : Statement (.headWordResponse ok) := of_no_code rfl

theorem initiatorResponse (ok : Bool) (data : Word) : Statement (.initiatorResponse ok data) := of_no_code rfl

end Sys2Proof.Laws.Rows
end

