-- ==== Sys2Proof/Tests/Slice0.lean ====
section
/-! SUPPORT. The model's own tests: the ill-formed commands that `WellFormed` refuses, single steps whose results the worked
examples of spec/ give, and for each statement with hypotheses a state and operands that meet them. -/

namespace Sys2Proof.Tests

open Sys2Proof.Machine

/-! ## WellFormed refuses ill-formed commands -/

theorem test_wf_unaligned_address_refused :
    (Instr.upstreamTransactionTake ⟨0x20000042, .write, 0xF, 0⟩).wf = false := by decide

theorem test_wf_read_of_some_lanes_refused :
    (Instr.upstreamTransactionTake ⟨0x20000040, .read, 0x3, 0⟩).wf = false := by decide

theorem test_wf_unknown_command_of_a_defined_code_refused : (Instr.unknownCommand 0x28 .rise).wf = false := by decide

theorem test_wf_frame_error_of_whole_bytes_refused :
    (Instr.frameError [true, false, true, false, true, false, true, false]).wf = false := by decide

theorem test_wf_accepts :
    (Instr.upstreamTransactionTake ⟨0x20000040, .write, 0, 0⟩).wf = true ∧ (Instr.unknownCommand 0x06 .rise).wf = true ∧
      (Instr.frameError (List.replicate 20 true)).wf = true := by decide

/-! ## No row of the table has bits -/

theorem test_no_word_spells_a_command (nbits w : Nat) : decodeTableWord nbits w = none := rfl

theorem test_withFetchWord_adds_none : (State.reset.withFetchWord 8 1).pending = [] := rfl

/-! ## Single steps -/

/-- The state after a command. -/
def after (c : Instr) (s : State) : State :=
  match exec c s with
  | .next t => t
  | .fault _ | .refused _ => s

/-- The device in ACTIVE. -/
def active : State := { State.reset with mode := .active }

/-- A whole frame with these host bytes after the command byte. -/
def bytes (ps : List Byte) : FrameEvent := .whole ps

/-- Group 2 of TABLE 1(c). -/
def group2 : Group :=
  { Group.initial with
    state := .armed, trigger := .periodic, nextInstant := some 5000, period := 1000, guardTicks := 100, quota := 16
    reportLates := true }

/-- Window 1 of TABLE 1(c). -/
def window1 : Window :=
  { Window.initial with
    enabled := true, base := 0x20000000, size := 0x1000, group := 2, readView := .staged, fullPolicy := .wait }

/-- The device of TABLE 1(c) at a TIME, with group 2 as given. -/
def example1 (t : Time) (x : Group) : State :=
  { active with
    timebase := { Timebase.initial with time := t }
    windows := active.windows.set 1 window1, groups := active.groups.set 2 x }

/-- Group 2 with filling entry `f` and outgoing entry `o`. -/
def holding (f o : List Entry) : Group := { group2 with filling := f, outgoing := o }

def e1 : Entry := ⟨0x20000040, 0xAABBCCEE, 0xF⟩
def e2 : Entry := ⟨0x20000040, 0x55660000, 0xC⟩

/-- TABLE 1(c), 4880. -/
theorem test_write_merges_into_the_filling_entry :
    let t := after (.upstreamTransactionTake ⟨0x20000040, .write, 0x1, 0xEE⟩)
      (example1 4880 (holding [⟨0x20000040, 0xAABBCCDD, 0xF⟩] []))
    (t.group 2).filling = [e1] ∧ t.reply = some .okWrite := by decide

/-- TABLE 1(c), 4900. -/
theorem test_tick_seals_at_the_seal_point :
    let t := after .tick (example1 4899 (holding [e1] []))
    (t.group 2).state = .sealed ∧ (t.group 2).outgoing = [e1] ∧ (t.group 2).filling = [] ∧ t.time = 4900 := by decide

/-- TABLE 1(c), 4930. -/
theorem test_write_in_sealed_is_late :
    let t := after (.upstreamTransactionTake ⟨0x20000040, .write, 0xC, 0x55660000⟩)
      (example1 4930 { holding [] [e1] with state := .sealed })
    (t.group 2).filling = [e2] ∧ (t.group 2).lateCount = 1 ∧ t.freeCount = 254 := by decide

/-- TABLE 1(c), 4940. -/
theorem test_read_of_staged_lanes :
    (after (.upstreamTransactionTake ⟨0x20000040, .read, 0xF, 0⟩)
      (example1 4940 { holding [e2] [e1] with state := .sealed })).reply = some (.okRead 0x5566CCEE) := by decide

/-- TABLE 1(c), 5010. -/
theorem test_overlay_read :
    let s := after (.upstreamTransactionTake ⟨0x20000040, .read, 0xF, 0⟩)
      (example1 5010 { holding [e2] [] with state := .draining })
    s.reply = none ∧ (after (.initiatorResponse true 0xAABBCCEE) s).reply = some (.okRead 0x5566CCEE) := by decide

/-- TABLE 2(e), 100: d is 900, greater than the guard 100. -/
theorem test_arm_before_the_seal_point :
    let x := { group2 with state := .opened, nextInstant := none }
    let t := after (.groupArm (bytes (numberByte 2 :: beBytes 6 1000))) (example1 100 x)
    (t.group 2).state = .armed ∧ (t.group 2).nextInstant = some 1000 := by decide

/-- TABLE 2(e), 1000: the commit instant, and the take. -/
theorem test_commit_instant_queues_and_the_engine_takes :
    let x := { holding [] [⟨0x10000000, 1, 0xF⟩, ⟨0x10000004, 2, 0xF⟩] with
      state := .sealed, nextInstant := some 1000, marker := some 0x40000000 }
    let t := after .tick (example1 999 x)
    (t.group 2).state = .draining ∧ (t.group 2).epochInstant = 1000 ∧ (t.group 2).nextInstant = some 2000 ∧
      (t.group 2).returnState = .armed ∧
      t.arbiter.outstanding = some (.drain, ⟨0x40000000, .write, 0xF, 1⟩) := by decide

/-- The engine in a step of group 2's epoch, whose write is outstanding. -/
def draining (x : Group) (step : Step) (a : Addr) : State :=
  { example1 1003 { x with state := .draining } with
    engine := some ⟨2, .epoch, step, .outstanding⟩
    arbiter := { Arbiter.initial with outstanding := some (.drain, ⟨a, .write, 0xF, 2⟩) } }

/-- TABLE 2(e), 1003: ENTRY answered ERROR. -/
theorem test_entry_error_stalls_the_group :
    let t := after (.drainStepResponse false) (draining (holding [] [⟨0x10000004, 2, 0xF⟩]) .entry 0x10000004)
    (t.group 2).state = .stalled ∧ (t.group 2).faultAddr = 0x10000004 ∧ t.link.flags.stall = true ∧ t.irq = true := by
  decide

/-- TABLE 2(e), 1900: the seal point reached while STALLED. -/
theorem test_seal_point_while_stalled_overruns :
    let x := { group2 with state := .stalled, nextInstant := some 2000, returnState := .armed }
    let t := after .tick (example1 1899 x)
    (t.group 2).overrunCount = 1 ∧ (t.group 2).nextInstant = some 3000 ∧ (t.group 2).state = .stalled := by decide

/-- TABLE 2(e), 2303: END answered OK. -/
theorem test_end_answered_completes_the_epoch :
    let x := { group2 with
      nextInstant := some 3000, marker := some 0x40000000, returnState := .armed
      progress := { Progress.initial with begun := true, entriesWritten := 2 } }
    let t := after (.drainStepResponse true) (draining x .finish 0x40000000)
    (t.group 2).state = .armed ∧ (t.group 2).epoch = 1 ∧ (t.group 2).nextInstant = some 3000 ∧ t.engine = none := by
  decide

/-- R62 and R142: two epochs complete, group 2's at its END and group 5's at its take; steps 1 to 4 of both come before step 6
of either, and the OVERRUN records of their return states (R40) stand in ascending group number. -/
theorem test_completion_at_the_take_reports_in_ascending_number :
    let late := { group2 with nextInstant := some 1000, returnState := .armed, reportCommits := true }
    let s := draining { late with marker := some 0x40000000 } .finish 0x40000000
    let t := after (.drainStepResponse true) { s with
      groups := s.groups.set 5 { late with state := .queued }, commitQueue := [5]
      records := { RecordUnit.initial with enabled := true, capacity := 16, writer := some (.initialHead, .requested) } }
    t.records.queue.map (·.body) =
      [.commitDone 2 1 0 0 0 1003, .commitDone 5 1 0 0 1003 1003, .overrun 2 1003 .jump 1, .overrun 5 1003 .jump 1] := by
  decide

/-- R142: the last ENTRY of group 2, whose release places a write held for the SEALED group 5: group 2's OVERRUN record stands
before group 5's LATE record (log entry 10). -/
theorem test_late_record_stands_in_ascending_number :
    let x := { holding [] [⟨0x10000004, 2, 0xF⟩] with nextInstant := some 1000, returnState := .armed }
    let s := draining x .entry 0x10000004
    let t := after (.drainStepResponse true) { s with
      mode := .active
      port := .held { tx := ⟨0x200, .write, 0xF, 7⟩, takeTime := 0, disposition := .hold, window := some 0 } 5 .room 0
      groups := s.groups.set 5 { group2 with state := .sealed, nextInstant := some 1200, quota := 1, reportLates := true }
      records := { RecordUnit.initial with enabled := true, capacity := 16, writer := some (.initialHead, .requested) } }
    t.records.queue.map (·.body) = [.overrun 2 1003 .jump 1, .late 5 1003 0x200 0xF 1200] ∧ t.reply = some .okWrite := by
  decide

/-- R67 and R142: an ABANDON of group 2 without a marker places a late write of group `h`: its LATE record stands before the
ABANDONED record, and for group 5 behind group 2's OVERRUN record. -/
theorem test_abandon_reports_the_late_write_it_places :
    let x := { holding [] [e1, e2] with state := .stalled, nextInstant := some 1000, returnState := .armed }
    let reports := fun h : GroupNum => (after (.groupAbandon (bytes [2])) { example1 1003 x with
      port := .held { tx := ⟨0x200, .write, 0xF, 7⟩, takeTime := 0, disposition := .hold, window := some 0 } h .room 0
      groups := (example1 1003 x).groups.set h
        { group2 with state := .sealed, nextInstant := some 1200, quota := 1, reportLates := true }
      records := { RecordUnit.initial with enabled := true, capacity := 16, writer := some (.initialHead, .requested) }
      }).records.queue.map (·.body)
    reports 1 = [.late 1 1003 0x200 0xF 1200, .abandoned 2 1003 1 2, .overrun 2 1003 .jump 1] ∧
      reports 5 = [.abandoned 2 1003 1 2, .overrun 2 1003 .jump 1, .late 5 1003 0x200 0xF 1200] := by
  decide

/-- The link of TABLE 10(d) before frame 2. -/
def link2 : State :=
  { active with
    link := { Link.initial with flags := { StatusFlags.clear with hrst := true, stall := true }, changeCount := 1 }
    irq := true }

/-- TABLE 10(d), frame 2. -/
theorem test_status_clear_with_an_old_count_is_stale :
    let t := after (.statusClear (bytes [0x02, 0x00])) link2
    t.link.lastResult = .stale ∧ t.link.flags.hrst = true := by decide

set_option maxRecDepth 8192 in
/-- TABLE 10(d), frame 4: 20 bits, of which data out shows 20 in return (R180), here the last result, the filler and four bits
of an empty device byte 2. -/
theorem test_frame_of_20_bits :
    let s := { link2 with link := { link2.link with lastResult := .stale } }
    let t := after (.frameError (List.replicate 20 false)) s
    t.link.lastResult = .frame ∧ t.link.flags.frame = true ∧ t.link.changeCount = 2 ∧
      t.link.dataOut = [false, false, false, false, false, true, true, true] ++ List.replicate 12 false := by decide

/-- R180: data out shows the first bit of device byte 0 from the fall of select, and the next bit after each falling edge; it
is not driven outside a frame. The last result is FRAME, 08H. -/
theorem test_data_out_shows_bit_by_bit :
    let s := after (.statusRead .fall) { link2 with link := { link2.link with lastResult := .frame } }
    let u := after (.statusRead (.clock [false, false, false, false])) s
    s.dataOutLevel = some false ∧ u.dataOutLevel = some true ∧
      (after (.statusRead (.clock [false])) u).dataOutLevel = some false ∧ link2.dataOutLevel = none := by decide

/-- TABLE 10(d), frame 8. -/
theorem test_group_read_of_number_9 :
    let t := after (.groupRead (bytes [9, 0, 0])) link2
    t.link.lastResult = .param ∧ t.link.dataOut = bitsOf [0, 0, 0, 0] := by decide

/-- TABLE 10(d), frame 9: IDENTIFY, after PARAM. -/
theorem test_identify :
    (after (.identify (bytes (List.replicate 10 0)))
      { link2 with link := { link2.link with lastResult := .param } }).link.dataOut =
      bitsOf [0x03, 0x00, 0x46, 0x24, 0x08, 0x01, 0x01, 0x00, 0x08, 0x08, 0x10] := by decide

/-- The record unit of TABLE 8(d) with producer, consumer and queue as given. -/
def ring (p c : Nat) (q : List QueuedRecord) : RecordUnit :=
  { RecordUnit.initial with
    enabled := true, base := 0x00E00000, capacity := 16, headAddr := 0x00F00000, tailAddr := 0x00F00004, threshold := 12
    urgencyMask := 0x10, producer := p, generation := 2, consumer := c, sequence := 42, queue := q }

def fault3 : QueuedRecord := { body := .fault 0 0 .entry 0, urgent := true }

/-- TABLE 8(d), 5: the tail update, IRQ released, and the record begun in slot 15; another transaction is outstanding. -/
theorem test_valid_tail_update :
    let t := after (.upstreamTransactionTake ⟨0x00F00004, .write, 0xF, 8⟩)
      { active with
        records := ring 15 0 [fault3], irq := true
        arbiter := { Arbiter.initial with outstanding := some (.drain, ⟨0, .write, 0xF, 0⟩) } }
    t.records.consumer = 8 ∧ t.records.unconsumed = 7 ∧ t.irq = false ∧
      t.records.writer.map (·.1) = some (.record 0 15 42) := by decide

/-- The writer's word is outstanding. -/
def writing (t : WriterTask) (r : RecordUnit) : State :=
  { active with
    records := { r with writer := some (t, .outstanding) }
    arbiter := { Arbiter.initial with outstanding := some (.record, ⟨0, .write, 0xF, 0⟩) } }

/-- TABLE 8(d), 6: word 7 in slot 15; P wraps, the generation counts, the loss is reported. -/
theorem test_word_7_completes_the_record :
    let t := after (.recordWordResponse true) (writing (.record 7 15 42) { ring 15 8 [fault3] with lostCount := 2 })
    t.records.producer = 0 ∧ t.records.generation = 3 ∧ t.records.sequence = 43 ∧ t.records.lostCount = 0 ∧
      t.records.queue.map (·.body) = [.lost 0 2] ∧
      t.arbiter.outstanding = some (.record, ⟨0x00F00000, .write, 0xF, 0x00030000⟩) := by decide

/-- TABLE 8(d), 7: the head word of an urgent record. -/
theorem test_head_word_sets_the_urgent_mark :
    let t := after (.headWordResponse true) (writing (.head 0 3 15 true) { ring 0 8 [] with generation := 3 })
    t.records.urgentMark = some 15 ∧ t.irq = true ∧ t.records.writer = none := by decide

/-- TABLE 8(d), 8: a value that is not below N. -/
theorem test_invalid_tail_write :
    let t := after (.upstreamTransactionTake ⟨0x00F00004, .write, 0xF, 20⟩) { active with records := ring 0 8 [] }
    t.link.flags.tail = true ∧ t.records.consumer = 8 := by decide

/-- R197: an abandoned END of epoch 1 has sequence 2 and bit 31. -/
theorem test_abandoned_end_word :
    ({ group2 with marker := some 0x40000000, epoch := 1 }.stepRequest .abandonEnd .finish).data = 0x80000002 := by
  decide

/-- R76: the divisor field 0 gives 65536. -/
theorem test_tick_set_divisor_0 :
    (after (.tickSet (bytes [0, 0, 1, 0, 5])) active).timebase.divisor = 65536 := by decide

/-- R176: a hardware reset sets HRST and clears PWR. -/
theorem test_hardware_reset :
    let t := after .hardwareReset active
    t.link.flags = { StatusFlags.clear with hrst := true } ∧ t.run = .resetLow ∧ t.mode = .bypass := by decide

/-! ## Witnesses: a state and operands that meet the hypotheses of each statement -/

/-- Settled, and the link takes a frame. -/
abbrev Ready (s : State) : Prop := Settled s ∧ LinkReady s

/-- The engine in the END step of group 7's epoch, whose write is outstanding. -/
def busy : State :=
  { active with
    engine := some ⟨7, .epoch, .finish, .outstanding⟩
    arbiter := { Arbiter.initial with outstanding := some (.drain, ⟨0x8000, .write, 0xF, 2⟩) }
    groups := active.groups.set 7
      { Group.initial with
        state := .draining, quota := 4, marker := some 0x8000, progress := { Progress.initial with begun := true } } }

/-- A group in service with one filling entry. -/
def serving : Group := { Group.initial with state := .opened, quota := 4, filling := [⟨0x100, 1, 0xF⟩] }

/-- A state with group 0 as given. -/
def group0 (s : State) (x : Group) : State := s.setGroup 0 x

/-- A write of all lanes to word address 100H. -/
def write100 : Transaction := ⟨0x100, .write, 0xF, 7⟩

def taken100 : Taken := { tx := write100, takeTime := 0, disposition := .hold, window := some 0 }

/-- A state whose port is HELD for group 0 with the write to 200H. -/
def holdingPort (s : State) (reason : HoldReason) (k : Nat) : State :=
  { s with port := .held { taken100 with tx := { write100 with addr := 0x200 } } 0 reason k }

/-- A state whose window 0 is as given, over 0 to FFFH. -/
def window0 (s : State) (w : Window) : State :=
  { s with windows := s.windows.set 0 { w with enabled := true, base := 0, size := 0x1000 } }

/-- A STAGE window of group 0. -/
def stage : Window := Window.initial

/-- A step of a command at the front of the queue answers a next state. -/
def stepping (s : State) (c : Instr) : State := { s with pending := [c] }

theorem witness_StepRunsTheFrontCommand : (stepping active .tick).pending = .tick :: [] := rfl

theorem witness_EmptyQueueIsOneClkPeriod :
    let slow := { active with timebase := { Timebase.initial with divisor := 3, count := 1 } }
    let last := { active with timebase := { Timebase.initial with divisor := 3, count := 2 } }
    let frozen := { active with timebase := { Timebase.initial with freezeEnable := true, freezeLine := true } }
    (Settled slow ∧ slow.run = .running ∧ slow.pending = [] ∧ slow.timebase.frozen = false ∧
      slow.timebase.count + 1 < slow.timebase.divisor) ∧
    (Settled last ∧ last.timebase.frozen = false ∧ ¬ last.timebase.count + 1 < last.timebase.divisor) ∧
    (Settled frozen ∧ frozen.timebase.frozen = true) := by decide

theorem witness_PowerOnAndHardwareReset :
    active.run = .running ∧ { active with run := .resetLow }.run ≠ .running ∧
      { active with run := .powerOnHold }.run ≠ .running ∧ linkCommands ≠ [] := by decide

theorem witness_StepKeepsNothingDue :
    Settled (stepping busy (.drainStepResponse true)) ∧
      ∃ t, step (stepping busy (.drainStepResponse true)) = .next t := ⟨by decide, _, rfl⟩

theorem witness_StepKeepsQueueLaw :
    QueueLaw (stepping busy (.drainStepResponse true)) ∧
      ∃ t, step (stepping busy (.drainStepResponse true)) = .next t := ⟨by decide, _, rfl⟩

theorem witness_StepKeepsPlaceLaw :
    (∀ p ∈ [Port.free, .passing taken100], PlaceLaw { busy with port := p }) ∧
    (let s := stepping { busy with
       port := .passing taken100, arbiter := { busy.arbiter with initiatorPlace := some (requestOf write100) } }
       (.drainStepResponse true)
     PlaceLaw s ∧ ∃ t, step s = .next t) := ⟨by decide, by decide, _, rfl⟩

theorem witness_StepKeepsBypassLaw :
    let s := stepping State.reset (.modeSet (.whole [1]))
    (QueueLaw s ∧ QuotaLaw s ∧ BypassLaw s ∧ s.mode = .bypass) ∧ ∃ t, step s = .next t := ⟨by decide, _, rfl⟩

theorem witness_StepKeepsPoolAndQuotas :
    let s := stepping (window0 (group0 active serving) stage) (.upstreamTransactionTake ⟨0x104, .write, 0xF, 7⟩)
    (PoolLaw s ∧ QuotaLaw s) ∧ ∃ t, step s = .next t := ⟨by decide, _, rfl⟩

theorem witness_StepKeepsAddressLaw :
    let s := stepping (window0 busy stage) (.drainStepResponse true)
    (QueueLaw s ∧ AddressLaw s) ∧ ∃ t, step s = .next t := ⟨by decide, _, rfl⟩

theorem witness_StepKeepsListLaw :
    let s := stepping (window0 (group0 active serving) stage) (.upstreamTransactionTake write100)
    (ListLaw s ∧ QueueLaw s ∧ BypassLaw s ∧ QuotaLaw s ∧ AddressLaw s ∧ EpochLaw s ∧ WordLaw s) ∧
      ∃ t, step s = .next t :=
  ⟨⟨by decide, by decide, by decide, by decide, by decide, by decide, by decide⟩, _, rfl⟩

theorem witness_StepKeepsCountsInRange :
    let s := stepping active .tick
    (RecordQueueLaw s ∧ TimebaseLaw s ∧ CountLaw s) ∧ ∃ t, step s = .next t := ⟨by decide, _, rfl⟩

theorem witness_WholeFrameIsItsParts :
    (0x02#8, Instr.statusRead) ∈ linkCommands ∧ Settled active ∧ active.run = .running ∧ active.link.selectLow = false :=
  ⟨.tail _ (.head _), by decide⟩

theorem witness_ReadDataIsTheSnapshot :
    let s := after (.statusRead (.clock (bitsOfByte 0x02))) (after (.statusRead .fall) active)
    let u := { s with mode := .bypass, timebase := { s.timebase with time := 9 } }
    (0x02#8, Instr.statusRead) ∈ linkCommands ∧ Settled s ∧ Settled u ∧ s.run = .running ∧ u.run = .running ∧
      s.link = u.link ∧ s.link.shifter.phase ≠ .command := ⟨.tail _ (.head _), by decide⟩

theorem witness_FramesInResettingAreBusy :
    let s := { busy with mode := .resetting }
    Settled s ∧ s.run = .running ∧ s.mode = .resetting ∧ s.link.selectLow = false ∧
      (Instr.unknownCommand 0x00 (.whole [])).wf = true ∧ (Instr.frameError [true]).wf = true := by decide

theorem witness_FrameChecksRefuseTheFrame :
    Ready active ∧ (Instr.frameError [true]).wf = true ∧
      (let bits := bitsOfByte 0x01#8 ++ [true]
       (Instr.frameError bits).wf = true ∧ bits.take 8 = bitsOfByte 0x01#8) ∧
      (let bits := bitsOfByte 0x04#8 ++ [true]
       (Instr.frameError bits).wf = true ∧ bits.take 8 = bitsOfByte 0x04#8) ∧ commandForm 0x04 = some (.write 1) ∧
      (Instr.unknownCommand 0xFF (.whole [])).wf = true ∧
      (commandForm 0x03 = some (.write 2) ∧ [(0 : Byte)].length ≠ 2 ∧ [(0 : Byte), 0, 0].length ≠ 2) ∧
      (commandForm 0x11 = some (.read 1) ∧ ([] : List Byte).length < 1) := by decide

theorem witness_IdentifyReturnsTheIdentity : Ready State.reset ∧ Ready active := by decide

theorem witness_StatusTimeAndRingReads : Ready active ∧ Ready busy := by decide

theorem witness_WindowAndGroupReads : Ready busy ∧ 7 < (8 : Byte).toNat ∧ 7 < (0xFF : Byte).toNat := by decide

theorem witness_StatusClearClearsTheNamedFlags :
    Ready link2 ∧ (0x80 : Byte).getLsbD 7 = true ∧ (0x7F : Byte).getLsbD 7 = false ∧ (0 : Byte) ≠ link2.link.changeCount ∧
      ¬ (1 : Byte) ≠ link2.link.changeCount := by decide

theorem witness_ModeSetWithoutAFlush :
    (Ready State.reset ∧ State.reset.mode = .bypass ∧ 2 ≤ (2 : Byte).toNat) ∧
    (Ready { busy with mode := .quiescing }) ∧
    (let s := group0 active { serving with state := .armed, filling := [] }
     Ready s ∧ s.mode = .active ∧ ∀ g, (s.group g).occupancy = 0 ∧
       ((s.group g).state = .off ∨ (s.group g).state = .opened ∨ (s.group g).state = .armed)) := by decide

theorem witness_ModeSetBeginsTheFlush :
    (let s := holdingPort (group0 busy { serving with state := .sealed, quota := 1 }) .room 3
     Ready s ∧ s.mode = .active ∧ s.engine ≠ none ∧ ¬ s.bypassAtOnce) ∧
    (let s := group0 active { serving with state := .stalled, filling := [] }
     Ready s ∧ s.mode = .active ∧ s.engine = none ∧ ¬ s.bypassAtOnce ∧ (s.group 0).state = .stalled) ∧
    (∀ x ∈ [{ serving with marker := some 0x8000 }, serving,
        { serving with state := .sealed, filling := [], marker := some 0x8000 }],
      let s := group0 active x
      Ready s ∧ s.mode = .active ∧ s.engine = none ∧ ¬ s.bypassAtOnce ∧ x.progress.begun = false ∧
        x.progress.abandonPending = false ∧ (x.state = .sealed ∨ x.filling ≠ [])) := by decide

theorem witness_SoftResetCompletesWithAnIdlePort :
    (Ready active ∧ active.arbiter.outstanding = none ∧ (∀ tk, active.port ≠ .passing tk)) ∧
    (let s := holdingPort active .room 0
     Ready s ∧ s.arbiter.outstanding = none ∧ (∀ tk, s.port ≠ .passing tk)) ∧
    (let s := { active with mode := .resetting }
     s.run = .running ∧ s.mode = .resetting ∧ s.arbiter.outstanding = none ∧ s.port = .free) ∧
    (let s := { active with mode := .resetting, port := .passing taken100 }
     s.run = .running ∧ s.mode = .resetting ∧ s.arbiter.outstanding = none ∧ s.port = .passing taken100) :=
  ⟨⟨by decide, rfl, nofun⟩, ⟨by decide, rfl, nofun⟩, by decide, by decide⟩

/-- The initiator path's transaction is outstanding. -/
def passing (d : Disposition) (x : Group) : State :=
  { group0 active x with
    port := .passing { taken100 with disposition := d }
    arbiter := { Arbiter.initial with outstanding := some (.initiator, requestOf write100) } }

/-- Memory's answer in RESETTING, to each owner, with a kept transaction and without. -/
theorem witness_SoftReset_answers :
    let kept := fun s : State => { s with port := .passing taken100 }
    let resetting := fun s : State => { s with mode := .resetting }
    (∀ s ∈ [resetting busy, kept (resetting busy)], Settled s ∧ s.run = .running ∧ s.arbiter.owner = some .drain) ∧
    (resetting busy).answeredBy (.drainStepResponse true) ∧ (resetting busy).port = .free ∧
    (∀ task ∈ [WriterTask.record 3 0 42, .initialHead],
      let s := resetting (writing task (ring 0 0 [fault3]))
      Settled s ∧ s.arbiter.owner = some .record ∧ s.port = .free) ∧
    (resetting (writing (.record 3 0 42) (ring 0 0 [fault3]))).answeredBy (.recordWordResponse false) ∧
    (resetting (writing .initialHead (ring 0 0 []))).answeredBy (.headWordResponse true) ∧
    (let s := resetting (passing .watch serving)
     Settled s ∧ s.run = .running ∧ s.arbiter.owner = some .initiator ∧ s.answeredBy (.initiatorResponse false 0)) :=
  ⟨by decide, by simp [State.answeredBy, busy, Arbiter.owner], rfl, by decide, .inl ⟨_, _, _, _, rfl⟩,
    .inl ⟨_, rfl⟩, by decide, rfl, rfl, _, rfl⟩

theorem witness_SoftResetWithABusyPort :
    (Ready busy ∧ busy.arbiter.outstanding ≠ none ∧ busy.port = .free) ∧
    (let s := { busy with
       port := .passing taken100, arbiter := { busy.arbiter with initiatorPlace := some (requestOf write100) } }
     Ready s ∧ s.arbiter.outstanding ≠ none ∧ s.port = .passing taken100 ∧ s.arbiter.initiatorPlace ≠ none) ∧
    (let s := { active with
       port := .passing taken100
       arbiter := { Arbiter.initial with outstanding := some (.initiator, requestOf write100) } }
     Ready s ∧ s.arbiter.outstanding ≠ none ∧ s.port = .passing taken100 ∧ s.arbiter.initiatorPlace = none) ∧
    (let s := holdingPort busy .room 0
     Ready s ∧ s.arbiter.outstanding ≠ none ∧ s.port ≠ .free) := by decide

theorem witness_TickSetAndCycleSetWriteTheirFields :
    let inHand := group0 active { serving with state := .armed, trigger := .cycle }
    let beyond := group0 active { serving with trigger := .cycle, cycleOffset := 2 }
    Ready active ∧ 2 ≤ (2 : Byte).toNat ∧
      (Ready inHand ∧ (inHand.group 0).trigger = .cycle ∧ (inHand.group 0).state = .armed) ∧
      (Ready beyond ∧ (beyond.group 0).trigger = .cycle ∧ (beyond.group 0).state ≠ .off ∧
        (2 : BitVec 32).toNat ≤ (beyond.group 0).cycleOffset.toNat) := by decide

/-- The timebase at TIME 10, not frozen. -/
def at10 (s : State) : State := { s with timebase := { Timebase.initial with time := 10 } }

/-- A group armed for TIME 20 with guard 5: its seal point is 15. -/
def armed20 (trigger : Trigger) : Group :=
  { serving with state := .armed, trigger := trigger, nextInstant := some 20, guardTicks := 5, period := 8 }

theorem witness_TimeSetWritesTime :
    (let s := { active with timebase := { Timebase.initial with freezeEnable := true, freezeLine := true } }
     Ready s ∧ s.timebase.frozen = true) ∧
    (Ready (at10 State.reset) ∧ (at10 State.reset).mode ≠ .active) ∧
    (let s := at10 (group0 active (armed20 .oneshot))
     Ready s ∧ s.timebase.frozen = false ∧ ((10 : Time) - s.time).toNat = 0 ∧ 2 ^ 47 ≤ ((9 : Time) - s.time).toNat ∧
       (passedOver s.time 14 (20 - (s.group 0).guardTicks.setWidth 48) = false ∧ passedOver s.time 14 20 = false)) := by
  decide

/-- The hypotheses of a forward TIME SET from 10 to `t1`. -/
abbrev Jumps (t1 : Time) (x : Group) : Prop :=
  Ready (at10 (group0 busy x)) ∧ 1 ≤ (t1 - 10).toNat ∧ (t1 - 10).toNat < 2 ^ 47 ∧ x.nextInstant = some 20 ∧
    (at10 (group0 busy x)).mode = .active ∧ (at10 (group0 busy x)).engine ≠ none ∧
    (at10 (group0 busy x)).timebase.frozen = false

/-- The same group SEALED. -/
def sealed20 (trigger : Trigger) : Group :=
  { armed20 trigger with state := .sealed, filling := [], outgoing := [⟨0x100, 1, 0xF⟩] }

/-- The same group STALLED, to come back ARMED. -/
def stalled20 (trigger : Trigger) : Group := { sealed20 trigger with state := .stalled, returnState := .armed }

theorem witness_TimeSetReachesWhatItPassesOver :
    (∀ p ∈ [(14, armed20 .oneshot), (15, armed20 .oneshot), (20, armed20 .oneshot), (20, armed20 .periodic),
        (23, armed20 .periodic), (19, sealed20 .oneshot), (20, sealed20 .oneshot), (20, sealed20 .periodic),
        (23, sealed20 .periodic), (14, stalled20 .oneshot), (15, stalled20 .oneshot), (15, stalled20 .periodic),
        (23, stalled20 .periodic), (15, { stalled20 .periodic with returnState := .opened }),
        (20, { armed20 .periodic with state := .opened }), (20, armed20 .cycle)], Jumps p.1 p.2) ∧
    (stalled20 .oneshot).state.busy = true ∧ (armed20 .periodic).period ≠ 0 := by decide

/-- Whether a move from 10 passes over a seal point 15, the commit instant 20, and the next period's seal point 23. -/
theorem witness_TimeSetReaches_points :
    let passed := fun (t1 v : Time) => 1 ≤ (v - 10).toNat ∧ (v - 10).toNat ≤ (t1 - 10).toNat
    ¬ passed 14 15 ∧ passed 15 15 ∧ ¬ passed 15 20 ∧ ¬ passed 19 20 ∧ passed 20 20 ∧ ¬ passed 22 23 ∧ passed 23 23 ∧
      (20 : Time) - (5 : BitVec 16).setWidth 48 = 15 := by decide

theorem witness_TickAdvancesTheCounts :
    (let s := { active with timebase := { Timebase.initial with freezeEnable := true, freezeLine := true } }
     Settled s ∧ s.run = .running ∧ s.timebase.frozen = true) ∧
    (∀ tk g r k, active.port ≠ .held tk g r k) ∧
    (let s := { holdingPort active .mode 1022 with timebase := Timebase.initial }
     Settled s ∧ s.timebase.frozen = false ∧ 1022 + 1 < s.timebase.holdLimit) ∧
    (let s := { holdingPort active .mode 5 with timebase := { Timebase.initial with holdLimit := 0 } }
     Settled s ∧ s.timebase.frozen = false ∧ s.timebase.holdLimit = 0) ∧
    (let s := holdingPort active .mode 1023
     Settled s ∧ 0 < s.timebase.holdLimit ∧ s.timebase.holdLimit ≤ 1023 + 1 ∧ s.mode = .active ∧
       ∀ g, (s.group g).state = .off) ∧
    (let s := holdingPort { busy with mode := .quiescing } .mode 1023
     Settled s ∧ s.timebase.frozen = false ∧ s.mode ≠ .active) := ⟨by decide, nofun, by decide⟩

/-- The hypotheses of a tick from TIME 10 and position 0 that meets group 0. -/
abbrev Ticks (x : Group) : Prop :=
  let s := at10 (group0 busy x)
  Settled s ∧ s.run = .running ∧ s.mode = .active ∧ s.engine ≠ none ∧ s.timebase.frozen = false ∧
    s.timebase.cyclePosition + 1 < s.timebase.cycleLength

theorem witness_TickReachesSealAndCommitPoints :
    (∀ x ∈ [{ armed20 .oneshot with nextInstant := some 16 }, { armed20 .periodic with nextInstant := some 16 },
        { armed20 .cycle with cycleOffset := 6 }, { armed20 .oneshot with nextInstant := some 11, guardTicks := 0 },
        { armed20 .periodic with nextInstant := some 11, guardTicks := 0 },
        { armed20 .cycle with cycleOffset := 1, guardTicks := 0 }, { sealed20 .oneshot with nextInstant := some 11 },
        { sealed20 .periodic with nextInstant := some 11 }, { sealed20 .cycle with cycleOffset := 1 },
        { stalled20 .periodic with nextInstant := some 16 }, { stalled20 .oneshot with nextInstant := some 16 },
        { stalled20 .cycle with cycleOffset := 6 }, { armed20 .manual with state := .opened }, armed20 .oneshot,
        sealed20 .oneshot, stalled20 .oneshot], Ticks x) ∧
    (∃ skips : List GroupNum, skips.Pairwise (· < ·) ∧ ∀ g, g ∈ skips ↔ g = 0 ∨ g = 7) ∧
    (let s := holdingPort (at10 (group0 busy { stalled20 .periodic with nextInstant := some 16 })) .room 1023
     Settled s ∧ s.mode = .active ∧ s.timebase.holdLimit ≤ 1023 + 1) := ⟨by decide, ⟨[0, 7], by decide⟩, by decide⟩

theorem witness_TickReaches_points :
    some (16 : Time) = some (10 + 1 + (5 : BitVec 16).setWidth 48) ∧ (16 : Time) ≠ 10 + 1 ∧
      some (11 : Time) = some (10 + 1 + (0 : BitVec 16).setWidth 48) ∧ 1 + (5 : BitVec 16).toNat = (6 : BitVec 32).toNat ∧
      1 = (1 : BitVec 32).toNat ∧ (20 : Time) ≠ 10 + 1 + (5 : BitVec 16).setWidth 48 := by decide

/-- An IDLE engine: an event that queues no group, and one that queues a group with a marker, with an entry, with neither. -/
theorem witness_EngineIdle :
    let idle := fun x : Group => at10 (group0 active x)
    let done := { sealed20 .periodic with outgoing := [] }
    let cycle := { sealed20 .cycle with cycleOffset := 0 }
    (∀ x ∈ [armed20 .periodic, sealed20 .periodic, { done with marker := some 0x8000 }, done,
        { sealed20 .periodic with nextInstant := some 11 }, { done with nextInstant := some 11 },
        { armed20 .oneshot with nextInstant := some 16 }],
      Ready (idle x) ∧ (idle x).mode = .active ∧ (idle x).engine = none ∧ (idle x).timebase.frozen = false ∧
        x.progress.begun = false ∧ x.progress.abandonPending = false ∧ x.guardTicks.toNat < x.period.toNat) ∧
    (∀ x ∈ [cycle, { cycle with outgoing := [] }, { cycle with marker := some 0x8000 }, sealed20 .oneshot],
      let s := { idle x with timebase := { Timebase.initial with syncSelect := .both, cyclePosition := 3 } }
      Settled s ∧ s.mode = .active ∧ s.engine = none ∧ s.timebase.frozen = false ∧ s.timebase.cyclePosition ≠ 0 ∧
        x.progress.begun = false) := by decide

/-- An IDLE engine and an event that queues three groups: two that complete at their takes and one with a step to ask for. -/
theorem witness_EngineIdle_chain :
    let done := { sealed20 .periodic with outgoing := [], nextInstant := some 11 }
    let cycle := { sealed20 .cycle with outgoing := [], cycleOffset := 0 }
    let three := fun x : Group =>
      ((group0 active x).setGroup 1 x).setGroup 2 { x with outgoing := [e1] }
    let edge := { three cycle with timebase := { Timebase.initial with syncSelect := .both, cyclePosition := 3 } }
    (Ready (at10 (three done)) ∧ (at10 (three done)).mode = .active ∧ (at10 (three done)).engine = none ∧
      done.marker = none ∧ done.progress.begun = false ∧ done.guardTicks.toNat < done.period.toNat) ∧
    (Settled edge ∧ edge.mode = .active ∧ edge.engine = none ∧ cycle.marker = none ∧ cycle.outgoing = []) := by decide

theorem witness_DuePointsAreTakenUp :
    let due : Due := { sealPoint := .fill true, commitInstant := .fill false, hold := false }
    let sealDue := { group0 busy (armed20 .oneshot) with due := due }
    let commitDue := { group0 busy { armed20 .cycle with state := .sealed } with
      due := { due with commitInstant := .fill true } }
    (Settled busy ∧ busy.run = .running ∧ busy.engine ≠ none ∧ busy.due.sealPoint.get 0 = false ∧
      busy.due.commitInstant.get 0 = false) ∧
    (Settled sealDue ∧ sealDue.mode = .active ∧ sealDue.due.sealPoint.get 0 = true ∧
      sealDue.due.commitInstant.get 0 = false ∧ (sealDue.group 0).state = .armed) ∧
    (Settled commitDue ∧ commitDue.mode = .active ∧ commitDue.due.commitInstant.get 0 = true ∧
      (commitDue.group 0).state = .sealed ∧ (commitDue.group 0).trigger = .cycle) := by decide

theorem witness_SyncAndFreezeLines :
    let select := fun (e : SyncSelect) (s : State) =>
      { s with timebase := { Timebase.initial with syncSelect := e, cyclePosition := 3 } }
    (Settled active ∧ active.run = .running ∧ active.timebase.syncSelect = .none) ∧
    (let s := { active with timebase := { Timebase.initial with freezeEnable := true, freezeLine := true } }
     Settled s ∧ s.run = .running) ∧
    (∀ e ∈ [SyncSelect.rise, .fall, .both], ∀ x ∈ [{ armed20 .cycle with cycleOffset := 5 },
        { armed20 .cycle with cycleOffset := 0, guardTicks := 0 }, { sealed20 .cycle with cycleOffset := 0 },
        { stalled20 .cycle with cycleOffset := 5 }, armed20 .cycle, sealed20 .oneshot],
      let s := select e (group0 busy x)
      Settled s ∧ s.run = .running ∧ s.timebase.frozen = false ∧ s.mode = .active ∧ s.timebase.cyclePosition ≠ 0 ∧
        s.engine ≠ none) := by decide

theorem witness_WindowSetWritesTheRecord :
    Ready State.reset ∧ (Ready { busy with mode := .quiescing }) ∧
    (let s := window0 (group0 active serving) stage
     Ready s ∧ s.mode = .active ∧ (s.windows.get 0).enabled = true ∧ (s.windows.get 0).kind = .stage ∧
       (s.group (s.windows.get 0).group).state ≠ .off) ∧
    2 ≤ (2 : Byte).toNat ∧ 8 ≤ (8 : Byte).toNat ∧ 3 ≤ (3 : Byte).toNat ∧ 7 < (8 : Byte).toNat ∧
    (List.replicate 15 (0 : Byte)).length = 15 := by decide

/-- For a new range of window 1, 0FC0H to 0FFFH: a byte of window 0, the head word, and a marker. -/
theorem witness_WindowSet_conflicts :
    (let s := window0 active stage
     Ready s ∧ (0 : WindowNum) ≠ 1 ∧ (s.windows.get 0).enabled = true ∧ (s.windows.get 0).base.toNat ≤ 0xFFF ∧
       0xFFF < (s.windows.get 0).base.toNat + (s.windows.get 0).size.toNat) ∧
    (let s := { active with records := { ring 0 0 [] with headAddr := 0xFFC } }
     Ready s ∧ s.records.enabled = true ∧ s.records.headAddr.toNat ≤ 0xFFF ∧ 0xFFF < s.records.headAddr.toNat + 4) ∧
    (let s := group0 active { serving with marker := some 0xFC0 }
     Ready s ∧ (s.group 0).state ≠ .off ∧ (s.group 0).marker = some 0xFC0) ∧
    ({ stage with base := 0xFC0, size := 64 }.base.toNat % 64 = 0 ∧ 0xFC0 + 64 = 0x1000) := by decide

theorem witness_GroupNumberAboveSevenIsRefused :
    (7, Instr.groupArm) ∈ groupWriteCommands ∧ Ready active ∧ 7 < (8 : Byte).toNat ∧
      (List.replicate 6 (0 : Byte)).length + 1 = 7 := ⟨.tail _ (.head _), by decide⟩

theorem witness_GroupSetWritesTheConfiguration :
    Ready active ∧ (∀ tk h r k, active.port ≠ .held tk h r k) ∧ (256 : Nat) < 65536 ∧ 4 ≤ (4 : Byte).toNat ∧
      2 ≤ (2 : Byte).toNat ∧ (active.group 0).state = .off ∧ ((group0 active serving).group 0).state = .opened ∧
      Ready (group0 active serving) := ⟨by decide, nofun, by decide⟩

theorem witness_GroupArmArmsTheGroup :
    Ready (at10 (group0 active { armed20 .oneshot with state := .opened })) ∧
      Ready (group0 active { armed20 .cycle with state := .opened, cycleOffset := 5 }) := by decide

/-- A STALLED group of a fault step, with or without an abandon pending. -/
def failed (step : Option Step) (pending : Bool) (o : List Entry) : Group :=
  { serving with
    state := .stalled, marker := some 0x8000, faultStep := step, outgoing := o
    progress := { Progress.initial with begun := true, abandonPending := pending } }

theorem witness_GroupDisarmAndRetryActByState :
    (let s := group0 active (armed20 .oneshot)
     Ready s ∧ s.mode ≠ .quiescing ∧ (s.group 0).state = .armed ∧ (s.group 0).state ≠ .stalled) ∧
    (let s := { group0 busy serving with mode := .quiescing }
     Ready s ∧ s.mode = .quiescing ∧ (s.group 0).state ≠ .armed) ∧
    (let s := group0 busy { serving with state := .stalled }
     Ready s ∧ (s.group 0).state = .stalled ∧ s.engine ≠ none) ∧
    (∀ x ∈ [failed none true [], failed (some .start) false [e1], failed (some .finish) false [],
        failed (some .entry) false [e1]],
      let s := group0 active x
      Ready s ∧ x.state = .stalled ∧ s.engine = none ∧ x.progress.begun = true ∧ x.marker = some 0x8000) := by decide

theorem witness_GroupCommitNowQueuesTheGroup :
    (Ready State.reset ∧ State.reset.mode ≠ .active) ∧
    (let s := group0 busy serving
     Ready s ∧ s.mode = .active ∧ (s.group 0).state = .opened ∧ s.engine ≠ none) ∧
    (∀ x ∈ [{ armed20 .periodic with marker := some 0x8000 }, armed20 .periodic, { armed20 .periodic with filling := [] },
        { serving with filling := [] }],
      let s := group0 active x
      Ready s ∧ s.mode = .active ∧ (x.state = .armed ∨ x.state = .opened) ∧ s.engine = none ∧
        x.progress.begun = false ∧ x.progress.abandonPending = false) := by decide

theorem witness_GroupDiscardAndOff :
    (let s := group0 active serving
     Ready s ∧ (∀ tk h r k, s.port ≠ .held tk h r k) ∧ s.mode ≠ .quiescing ∧
       ¬ (((s.group 0).state = .opened ∨ (s.group 0).state = .armed) ∧ (s.group 0).occupancy = 0)) ∧
    (let s := group0 active { serving with filling := [] }
     Ready s ∧ (s.group 0).state = .opened ∧ (s.group 0).occupancy = 0 ∧ s.port.heldFor 0 = false ∧
       s.mode ≠ .quiescing) ∧
    (let s := holdingPort (group0 active { serving with filling := [], quota := 0 }) .room 0
     Ready s ∧ (s.group 0).state = .opened ∧ (s.group 0).occupancy = 0 ∧ s.port.heldFor 0 = true) :=
  ⟨⟨by decide, nofun, by decide⟩, by decide, by decide⟩

theorem witness_GroupAbandonDropsTheEpoch :
    let stalled := fun (m : Option Addr) (r : ReturnState) => { failed (some .entry) false [e1] with
      marker := m, returnState := r }
    (∀ tk h r k, busy.port ≠ .held tk h r k) ∧
    (Ready (group0 busy serving) ∧ ((group0 busy serving).group 0).state ≠ .stalled) ∧
    (∀ s ∈ [busy, active], ∀ x ∈ [failed (some .finish) true [], stalled (some 0x9000) .opened, stalled none .opened,
        { stalled none .armed with trigger := .periodic, period := 8, nextInstant := some 0 }],
      Ready (group0 s x) ∧ s.mode = .active ∧ x.state = .stalled ∧ x.progress.begun = true) ∧
    (busy.engine ≠ none ∧ active.engine = none) ∧
    (∀ x ∈ [stalled none .armed, { stalled none .armed with filling := [] }],
      Ready { group0 busy x with mode := .quiescing }) := ⟨nofun, by decide⟩

/-- The ring of TABLE 8(d) as parameters. -/
def ringParams : RingParams :=
  { enable := some true, base := 0x00E00000, capacity := 16, headAddr := 0x00F00000, tailAddr := 0x00F00004
    threshold := 15, urgencyMask := 0x10 }

theorem witness_RingSetEnablesTheRing :
    (ringParams.base < 2 ^ 32 ∧ ringParams.headAddr < 2 ^ 32 ∧ ringParams.tailAddr < 2 ^ 32 ∧
      ringParams.capacity < 65536 ∧ ringParams.threshold < 65536) ∧
    (let s := { active with records := ring 0 0 [] }
     Ready s ∧ s.records.enabled = true) ∧
    (Ready active ∧ active.records.enabled = false ∧ ringParams.capacity ≤ 16 ∧ active.records.writer = none ∧
      ringParams.badValues = false ∧ active.ringConflict ringParams = false) ∧
    (let s := group0 active { serving with marker := some 0x00F00004 }
     Ready s ∧ (s.group 0).state ≠ .off ∧ (s.group 0).marker = some 0x00F00004 ∧
       (0x00F00004 : Addr).toNat = ringParams.tailAddr) ∧
    (let s := { active with windows := active.windows.set 0 { stage with enabled := true, base := 0x00F00000, size := 64 } }
     Ready s ∧ (s.windows.get 0).enabled = true ∧ (s.windows.get 0).base.toNat ≤ ringParams.headAddr + 3 ∧
       ringParams.headAddr + 3 < (s.windows.get 0).base.toNat + (s.windows.get 0).size.toNat) ∧
    (let s := writing (.disowned false false) RecordUnit.initial
     Ready s ∧ s.records.writer = some (.disowned false false, .outstanding) ∧ s.records.enabled = false ∧
       s.ringConflict ringParams = false) :=
  ⟨by decide, by decide, by decide, by decide, by decide, by decide⟩

theorem witness_RingSetDisablesTheRing :
    (List.replicate 17 (0 : Byte)).length = 17 ∧ 2 ≤ (2 : Byte).toNat ∧
    (let s := { active with records := ring 0 0 [] }
     Ready s ∧ s.records.writer = none) ∧
    (let r := { ring 0 0 [] with writer := some (.initialHead, .requested) }
     Ready { busy with records := r, arbiter := { busy.arbiter with recordPlace := some ⟨0, .write, 0xF, 0⟩ } }) ∧
    Ready (writing (.record 3 0 42) (ring 0 0 [fault3])) := by decide

theorem witness_PassedTransactionIsRequestedUnchanged :
    write100.wf = true ∧ (Settled active ∧ active.run = .running ∧ active.port = .free ∧ active.mode ≠ .resetting ∧
      active.records.enabled = false ∧ active.matchWindow write100.addr = none) ∧
    (Settled (holdingPort active .room 0) ∧ (holdingPort active .room 0).port ≠ .free) ∧
    (State.reset.mode = .bypass ∧ Settled State.reset) ∧
    (let s := window0 active { stage with kind := .watch, watchOn := .reads }
     Settled s ∧ s.matchWindow write100.addr = some 0 ∧ (s.windows.get 0).watchOn = .reads ∧
       write100.dir = .write) ∧
    (let s := window0 active stage
     Settled s ∧ s.matchWindow write100.addr = some 0 ∧ (s.group (s.windows.get 0).group).state = .off) ∧
    (let s := window0 (group0 active serving) stage
     Settled s ∧ s.matchWindow 0x100 = some 0 ∧ (s.windows.get 0).readView = .memory) := by decide

/-- The hypotheses on a write to 100H in a STAGE window `w` of group `x`. -/
abbrev Writes (s : State) (w : Window) (x : Group) : Prop :=
  let u := window0 (group0 s x) w
  Settled u ∧ u.run = .running ∧ u.port = .free ∧ u.isTailWrite write100 = false ∧
    u.matchWindow write100.addr = some 0 ∧ (u.windows.get 0).kind = .stage ∧ (u.windows.get 0).group = 0 ∧
    (u.group 0).state ≠ .off

theorem witness_StagedWriteIsMergedOrAppended :
    ∀ x ∈ [serving, { serving with filling := [e1, e2, e1] },
        { armed20 .periodic with state := .sealed, reportLates := true },
        { armed20 .cycle with state := .sealed, reportLates := true, filling := [] }], Writes active stage x := by decide

theorem witness_StagedWrite_room :
    (write100.wf = true ∧ write100.dir = .write ∧ write100.lanes ≠ 0 ∧ active.mode = .active) ∧
    (∃ e ∈ serving.filling, e.addr = write100.addr) ∧
    (let x := { serving with filling := [e1, e2, e1] }
     (¬ ∃ e ∈ x.filling, e.addr = write100.addr) ∧ x.filling.length + x.outgoing.length < x.quota ∧
       (group0 active x).poolUsed < 256) := by decide

theorem witness_FullGroupRefusesTheWrite :
    (let x := { serving with filling := [e1], quota := 1 }
     Writes active stage x ∧ (window0 active stage |>.windows.get 0).fullPolicy = .refuse ∧
       (∀ e ∈ x.filling, e.addr ≠ write100.addr) ∧ x.quota ≤ x.filling.length + x.outgoing.length) ∧
    (Writes active stage { serving with quota := 1 } ∧ ∃ e ∈ serving.filling, e.addr = write100.addr) := by decide

theorem witness_HeldAndEmptyWrites :
    let waits := { stage with fullPolicy := .wait }
    let x := { serving with filling := [e1], quota := 1 }
    (Writes active waits x ∧ (∀ e ∈ x.filling, e.addr ≠ write100.addr) ∧
      x.quota ≤ x.filling.length + x.outgoing.length) ∧
    Writes { busy with mode := .quiescing } waits x ∧ { write100 with lanes := 0 }.wf = true := by decide

theorem witness_StagedReadIsAnsweredOrOverlaid :
    let t : Transaction := ⟨0x100, .read, 0xF, 0⟩
    let e := fun l : Lanes => (⟨0x100, 1, l⟩ : Entry)
    let staged := fun (list : List Entry) (k : Nat) =>
      (list.find? (fun e => e.addr == t.addr)).bind (fun e =>
        if e.lanes.getLsbD k then some (e.data.extractLsb' (8 * k) 8) else none)
    (∀ p ∈ [([e 0x3], [e 0xC]), ([e 0xF], []), ([], [e 0xF]), ([e 0x3], [e 0x4]), ([e 0x7], []), ([], [e 0x7]), ([], [])],
      let x := { serving with filling := p.1, outgoing := p.2 }
      let s := window0 (group0 active x) { stage with readView := .staged }
      t.wf = true ∧ Settled s ∧ s.run = .running ∧ s.port = .free ∧ s.mode = .active ∧ s.matchWindow t.addr = some 0 ∧
        (s.windows.get 0).kind = .stage ∧ (s.windows.get 0).readView = .staged ∧ x.state ≠ .off) ∧
    (∀ k < 4, (staged [e 0x3] k).or (staged [e 0xC] k) ≠ none ∧ staged [e 0xF] k ≠ none) ∧
    (∃ k < 4, (staged [e 0x3] k).or (staged [e 0x4] k) = none) := by decide

theorem witness_TailWriteIsSnooped :
    let s := { active with records := ring 15 8 [] }
    let t : Transaction := ⟨0x00F00004, .write, 0xF, 15⟩
    (Settled s ∧ s.run = .running ∧ t.wf = true ∧ s.port = .free ∧ s.mode ≠ .resetting ∧ s.records.enabled = true ∧
      t.addr = s.records.tailAddr) ∧
    (t.lanes = 0xF ∧ t.data.toNat % 65536 < s.records.capacity ∧
      (15 + 16 - 8 % 16) % 16 ≤ s.records.unconsumed) ∧ ¬ (16 : Nat) < s.records.capacity := by decide

theorem witness_WatchedAccessOpensAContext :
    let s := window0 active { stage with kind := .watch, watchOn := .both, watchData := true }
    let b := window0 busy { stage with kind := .watch, watchOn := .both, watchData := true }
    write100.wf = true ∧ (Settled s ∧ s.run = .running ∧ s.port = .free ∧ s.mode = .active ∧
      s.isTailWrite write100 = false ∧ s.matchWindow write100.addr = some 0 ∧ (s.windows.get 0).kind = .watch ∧
      (s.windows.get 0).watchOn = .both ∧ s.arbiter.outstanding = none) ∧
    (Settled b ∧ b.port = .free ∧ b.mode = .active ∧ b.matchWindow write100.addr = some 0 ∧
      b.arbiter.outstanding ≠ none) := by decide

theorem witness_HeldWriteIsPlacedOrExpires :
    (Settled active ∧ active.run = .running ∧ active.canPlaceHeld = false ∧ active.due.hold = false) ∧
    (∀ x ∈ [serving, { sealed20 .oneshot with reportLates := true }, { sealed20 .cycle with reportLates := true },
        sealed20 .periodic],
      let s := holdingPort (group0 active { x with quota := 2 }) .room 0
      Settled s ∧ s.mode = .active ∧ s.poolUsed < 256 ∧
        (s.group 0).filling.length + (s.group 0).outgoing.length < (s.group 0).quota) ∧
    (let s := { holdingPort active .mode 1024 with due := { Due.none with hold := true } }
     Settled s ∧ s.due.hold = true ∧ s.port ≠ .free) := by decide

theorem witness_ReleasesPlaceTheHeldWrite :
    (let s := holdingPort (group0 active { serving with quota := 1 }) .room 0
     Ready s ∧ s.mode = .active ∧ (s.group 0).state ≠ .sealed ∧ (s.group 0).state ≠ .off ∧
       (s.group 0).filling = ⟨0x100, 1, 0xF⟩ :: [] ∧ (s.group 0).occupancy ≤ (s.group 0).quota ∧ s.poolUsed ≤ 256 ∧
       (s.group 0).state = .opened ∧ (s.group 0).occupancy < 2 ∧ s.poolUsed < 256) ∧
    (let s := holdingPort (group0 active { sealed20 .cycle with filling := [⟨0x100, 1, 0xF⟩], quota := 2 }) .room 0
     Ready s ∧ (s.group 0).state = .sealed ∧ (s.group 0).occupancy ≤ (s.group 0).quota ∧ s.poolUsed ≤ 256) ∧
    (let s := holdingPort (group0 (active.setGroup 1 serving) { sealed20 .cycle with quota := 2 }) .room 0
     Ready s ∧ (s.group 1).state ≠ .off ∧ (s.group 1).filling ≠ [] ∧ (s.group 0).occupancy < (s.group 0).quota) := by
  decide

/-- The release of a drained entry of another group and of the held write's own, and a GROUP ABANDON of another group and of
its own. -/
theorem witness_ReleasesPlaceTheHeldWrite_drain :
    (∀ o ∈ [[e1, e2], [e1]],
      let s := holdingPort (group0 (draining { holding [] o with marker := some 0x8000 } .entry 0x10000004)
        { serving with quota := 2 }) .room 0
      Ready s ∧ s.mode = .active ∧ (s.group 2).outgoing = e1 :: o.tail ∧ (s.group 0).occupancy < (s.group 0).quota ∧
        s.poolUsed ≤ 256) ∧
    (let s := draining { holding [e2] [e1, e2] with quota := 3 } .entry 0x10000004
     let u := { s with port := .held taken100 2 .room 0 }
     Ready u ∧ u.mode = .active ∧ (u.group 2).outgoing = e1 :: [e2] ∧ (u.group 2).occupancy ≤ (u.group 2).quota) ∧
    (∀ h ∈ [(0 : GroupNum), 1],
      let s := holdingPort (group0 (busy.setGroup 1 (failed (some .entry) false [e1]))
        { failed (some .entry) false [e1] with quota := 3 }) .room 0
      Ready s ∧ s.mode = .active ∧ (s.group h).state = .stalled ∧ (s.group h).outgoing ≠ [] ∧
        (s.group h).marker ≠ none ∧ s.engine ≠ none ∧ (s.group 0).occupancy < (s.group 0).quota ∧ s.poolUsed ≤ 256) :=
  ⟨by decide, by decide, by decide⟩

/-- A write held for group `g`, which is SEALED with room for it unless it is group 2, in ACTIVE. -/
def heldFor (g : GroupNum) (s : State) : State :=
  let late := { sealed20 .cycle with reportLates := true, quota := 2 }
  { s with mode := .active, port := .held taken100 g .room 0, groups := if g = 2 then s.groups else s.groups.set g late }

/-- The last ENTRY of a group without a marker and a GROUP ABANDON of one, with the write held for a group of a lower number,
of the same, and of a higher one. -/
theorem witness_ReleasesPlaceTheHeldWrite_completion :
    (∀ g ∈ [(0 : GroupNum), 2, 5],
      let x := { holding [] [e1] with returnState := .armed, nextInstant := some 1000, quota := 2 }
      let s := heldFor g (draining x .entry 0x10000004)
      Ready s ∧ (s.group 2).outgoing = [e1] ∧ (s.group 2).marker = none ∧ s.commitQueue = [] ∧
        (s.group g).occupancy < (s.group g).quota ∧ s.poolUsed ≤ 256 ∧ SealBehind s.time 1000 x.guardTicks) ∧
    (∀ g ∈ [(0 : GroupNum), 2, 5],
      let s := heldFor g (active.setGroup 2 { failed (some .entry) false [e1] with marker := none, quota := 3 })
      Ready s ∧ (s.group 2).state = .stalled ∧ (s.group 2).progress.abandonPending = false ∧ (s.group 2).outgoing ≠ [] ∧
        (s.group 2).marker = none ∧ (s.group g).occupancy < (s.group g).quota ∧ s.poolUsed ≤ 256) :=
  ⟨by decide, by decide⟩

theorem witness_MemoryAnswersTheInitiator :
    (Settled busy ∧ busy.run = .running ∧ busy.arbiter.owner ≠ some .initiator) ∧
    (Settled (passing .pass serving) ∧ (passing .pass serving).arbiter.owner = some .initiator) ∧
    (∀ x ∈ [serving, { serving with filling := [], outgoing := [⟨0x100, 1, 0x3⟩] },
        { serving with outgoing := [⟨0x100, 1, 0x3⟩] }, { serving with filling := [] }],
      Settled (passing (.overlay 0) x) ∧ (passing (.overlay 0) x).arbiter.owner = some .initiator) ∧
    (let w : WatchContext :=
      { window := 0, takeTime := 0, addr := 0x100, dir := .write, lanes := 0xF, capture := true, writeData := 7
        grantsAhead := 65535 }
     let s := { passing .watch serving with watch := some w }
     Settled s ∧ s.run = .running ∧ s.mode ≠ .resetting ∧ s.arbiter.owner = some .initiator) := by decide

/-- The three places full, the arbiter IDLE. -/
def waiting : State :=
  { active with arbiter := ⟨none, some ⟨0, .write, 0xF, 0⟩, some ⟨4, .write, 0xF, 0⟩, some ⟨8, .write, 0xF, 0⟩⟩ }

theorem witness_GrantFollowsTheOrder :
    (active.run = .running ∧ Settled active) ∧
    (let s := waiting
     s.run = .running ∧ s.mode ≠ .resetting ∧ s.arbiter.outstanding = none ∧ s.canTake = false ∧ s.flushDone = false ∧
       s.canBeginRecord = false ∧ s.irq = irqCondition s.records s.link.flags) ∧
    (∀ a ∈ [waiting.arbiter, { waiting.arbiter with drainPlace := none },
        { waiting.arbiter with drainPlace := none, recordPlace := none }], a.waiting ≠ []) := by decide

/-- An answer to each owner with requests of the others waiting. -/
theorem witness_GrantFollowsTheOrder_answers :
    let r := fun w => { ring 3 3 [fault3] with writer := w }
    let wait := fun (s : State) (d i : Option Request) =>
      { s with port := .passing taken100, arbiter := { s.arbiter with drainPlace := d, initiatorPlace := i } }
    let q := some (requestOf write100)
    (let s := wait { draining (holding [] [e1, e2]) .entry 0 with records := r (some (.record 0 3 42, .requested)) } none q
     Settled { s with arbiter := { s.arbiter with recordPlace := q } } ∧ s.mode ≠ .resetting ∧ PlaceLaw s ∧
       s.answeredBy (.drainStepResponse true)) ∧
    (let s := wait (writing (.record 3 3 42) (r none)) none q
     Settled s ∧ PlaceLaw s ∧ s.arbiter.owner = some .record ∧ s.answeredBy (.recordWordResponse true)) ∧
    (let s := wait (writing .initialHead (ring 3 3 [])) q q
     Settled s ∧ PlaceLaw s ∧ s.arbiter.drainPlace = q ∧ s.answeredBy (.headWordResponse true)) ∧
    (let s := { passing .pass serving with records := r (some (.record 0 3 42, .requested)) }
     Settled { s with arbiter := { s.arbiter with recordPlace := q } } ∧ PlaceLaw s ∧ s.arbiter.owner = some .initiator ∧
       s.answeredBy (.initiatorResponse true 0)) :=
  ⟨⟨by decide, by decide, by decide, by simp [State.answeredBy, draining, Arbiter.owner]⟩,
    ⟨by decide, by decide, rfl, .inl ⟨_, _, _, _, rfl⟩⟩, ⟨by decide, by decide, rfl, .inl ⟨_, rfl⟩⟩, by decide, by decide, rfl,
    _, rfl⟩

/-- A queued group at the head, the arbiter BUSY. -/
def takes (x : Group) : State :=
  { group0 active { x with state := .queued } with
    commitQueue := [0]
    arbiter := { Arbiter.initial with outstanding := some (.initiator, requestOf write100) } }

theorem witness_DrainTakeFollowsTheProgressRecord :
    let s := takes serving
    s.run = .running ∧ s.mode ≠ .resetting ∧ s.engine = none ∧ s.commitQueue = 0 :: [] ∧
      s.arbiter.outstanding ≠ none ∧ s.canBeginRecord = false ∧ s.irq = irqCondition s.records s.link.flags := by decide

theorem witness_DrainTake_progress (begun pending : Bool) (f : Option Step) (m : Option Addr) :
    let s := takes { serving with
      marker := m, outgoing := [e1], faultStep := f
      progress := { Progress.initial with begun := begun, abandonPending := pending } }
    s.engine = none ∧ s.commitQueue = 0 :: [] ∧ (s.group 0).progress.begun = begun ∧
      (s.group 0).progress.abandonPending = pending ∧ (s.group 0).faultStep = f ∧ (s.group 0).marker = m ∧
      (s.group 0).outgoing = e1 :: [] ∧ s.canBeginRecord = false ∧ s.irq = irqCondition s.records s.link.flags :=
  ⟨rfl, rfl, rfl, rfl, rfl, rfl, rfl, rfl, rfl⟩

theorem witness_DrainStepsFollowOneAnother :
    (∀ step o, (∀ tk h r k, (draining (holding [] o) step 0).port ≠ .held tk h r k)) ∧
    (∀ p ∈ [(Step.start, [e1]), (.start, []), (.entry, [e1, e2]), (.entry, [e1])],
      let s := draining { holding [] p.2 with marker := some 0x8000 } p.1 0x8000
      Settled s ∧ s.run = .running ∧ s.mode = .active ∧ s.engine = some ⟨2, .epoch, p.1, .outstanding⟩) ∧
    (let s := draining { holding [] [e1] with marker := none } .entry 0x8000
     Settled s ∧ s.run = .running ∧ s.mode = .active ∧ (s.group 2).marker = none ∧ s.commitQueue = []) :=
  ⟨nofun, by decide, by decide⟩

/-- The hypotheses on an END of either kind answered OK of group 2, in a mode and with group 0 as the commit queue or without. -/
abbrev Ends (kind : DrainKind) (mode : Mode) (queue : List GroupNum) (x h : Group) : Prop :=
  let s := draining x .finish 0x8000
  let u := { group0 s h with
    mode := mode, commitQueue := queue, engine := some ⟨2, kind, .finish, .outstanding⟩ }
  Settled u ∧ u.run = .running ∧ u.arbiter.owner = some .drain ∧ (∀ g ∈ queue, g ≠ 2 ∧ (u.group g).state = .queued)

theorem witness_EndMarkerCompletesTheEpoch :
    ∀ kind ∈ [DrainKind.epoch, .abandonEnd], ∀ x ∈ [group2, { group2 with returnState := .armed, nextInstant := some 1104 },
          { group2 with returnState := .armed, nextInstant := some 1103 },
          { group2 with returnState := .armed, trigger := .oneshot, nextInstant := some 1103 },
          { group2 with returnState := .armed, trigger := .cycle, nextInstant := none }],
      Ends kind .active [] x Group.initial := by decide

theorem witness_EndMarker_take :
    ∀ kind ∈ [DrainKind.epoch, .abandonEnd], ∀ h ∈ [{ serving with state := .queued, marker := some 0x9000 },
        { serving with state := .queued, outgoing := [e1] }, { serving with state := .queued }],
      Ends kind .active [0] group2 h := by decide

theorem witness_EndMarker_quiescing :
    ∀ kind ∈ [DrainKind.epoch, .abandonEnd], ∀ x ∈ [group2, holding [e2] []],
      ∀ h ∈ [Group.initial, { serving with state := .stalled }], Ends kind .quiescing [] x h := by decide

theorem witness_EndMarker_points :
    ((1003 : Time) - (1103 - (100 : BitVec 16).setWidth 48)).toNat < 2 ^ 47 ∧
      2 ^ 47 ≤ ((1003 : Time) - (1104 - (100 : BitVec 16).setWidth 48)).toNat := ⟨by simp, by simp⟩

theorem witness_DrainErrorStallsTheGroup :
    (Settled active ∧ active.run = .running ∧ active.arbiter.owner ≠ some .drain) ∧
    (Settled busy ∧ busy.mode ≠ .resetting ∧ busy.engine = some ⟨7, .epoch, .finish, .outstanding⟩ ∧
      busy.arbiter.outstanding = some (.drain, ⟨0x8000, .write, 0xF, 2⟩) ∧ busy.commitQueue = []) := by decide

theorem witness_RecordWordsAreWrittenInTurn :
    (active.run = .running ∧ Settled active) ∧
    (let s := { busy with records := ring 3 3 [fault3] }
     s.mode ≠ .resetting ∧ s.canTake = false ∧ s.flushDone = false ∧ s.arbiter.outstanding ≠ none ∧
       s.irq = irqCondition s.records s.link.flags ∧ s.records.writer = none ∧ s.records.enabled = true ∧
       s.records.queue = fault3 :: [] ∧ 0 < s.records.free) ∧
    (∀ k ∈ [0, 6, 7], ∀ lost ∈ [0, 2],
      let s := writing (.record k 3 42) { ring 3 3 [fault3] with lostCount := lost }
      Settled s ∧ s.run = .running ∧ s.mode ≠ .resetting ∧ s.arbiter.owner = some .record ∧
        s.records.queue = fault3 :: [] ∧ s.records.lostCount = lost) := by decide

theorem witness_RingErrorsAndHeadWords :
    (Settled active ∧ active.run = .running ∧ active.arbiter.owner ≠ some .record) ∧
    (∀ slot ∈ [2, 3],
      let s := writing (.head 3 2 slot true) (ring 3 2 [])
      Settled s ∧ s.run = .running ∧ s.mode ≠ .resetting ∧ s.arbiter.owner = some .record) ∧
    (∀ task ∈ [WriterTask.initialHead, .disowned true true, .disowned false true],
      let s := writing task (ring 0 0 [])
      Settled s ∧ s.run = .running ∧ s.arbiter.owner = some .record) ∧
    (∀ isHead ∈ [true, false],
      let s := writing (.disowned isHead false) RecordUnit.initial
      Settled s ∧ s.run = .running ∧ s.arbiter.owner = some .record ∧ s.records.enabled = false) := by decide

theorem witness_RingErrors_record :
    let s := writing (.record 3 3 42) (ring 3 3 [fault3])
    (Settled s ∧ s.mode ≠ .resetting ∧ s.arbiter.owner = some .record ∧ s.records.queue = fault3 :: []) ∧
      [fault3].length ≤ 16 ∧ (List.replicate 16 fault3).length ≤ 16 :=
  ⟨by decide, Nat.le_of_ble_eq_true rfl, Nat.le_of_ble_eq_true rfl⟩

theorem witness_FlushCompletesInBypass :
    let s := { group0 active { serving with filling := [] } with
      mode := .quiescing
      arbiter := { Arbiter.initial with outstanding := some (.initiator, requestOf write100) } }
    (active.run = .running ∧ Settled active) ∧
    (∀ tk h r k, s.port ≠ .held tk h r k) ∧
    (s.mode = .quiescing ∧ s.engine = none ∧ s.commitQueue = [] ∧
      (∀ g, (s.group g).state = .off ∨
        ((s.group g).state = .opened ∧ (s.group g).filling = [] ∧ (s.group g).outgoing = [])) ∧
      s.canBeginRecord = false ∧ s.irq = irqCondition s.records s.link.flags ∧ s.arbiter.outstanding ≠ none) ∧
    ((holdingPort s .mode 4).canBeginRecord = false ∧ (holdingPort s .mode 4).port ≠ .free) :=
  ⟨by decide, nofun, by decide, by decide⟩

theorem witness_RecordWordsHoldTheContents : (65535 : Nat) < 65536 ∧ (256 : Nat) ≤ 256 := by decide

theorem witness_OverlayTakesTheLanes : ∀ k ∈ [0, 3], k < 4 := by decide

end Sys2Proof.Tests
end

section
/-! PROOF. O43, the write that finds its group full under policy REFUSE, and the rules it rests on: a well-formed transaction
is on the bus as it was presented; a staged write in ACTIVE is presented for placement; and what can follow such a write at
once is the beginning of a record with its grant, no more. -/

namespace Sys2Proof.Machine

/-! ## The take of a staged write -/

theorem exec_take (t : Transaction) (s : State) :
    exec (.upstreamTransactionTake t) s = happening s (fun a => a.takeUpstream t) := rfl

/-- The mask of a word address changes no aligned address (0.6.3). -/
theorem and_wordMask_of_aligned {a : Addr} (h : a.toNat % 4 = 0) : a &&& 0xFFFFFFFC#32 = a := by
  have hmask : ∀ i < 32, (0xFFFFFFFC#32 : Addr).getLsbD i = decide (2 ≤ i) := by decide
  apply BitVec.eq_of_getLsbD_eq
  intro i hi
  rw [BitVec.getLsbD_and, hmask i hi]
  by_cases h2 : 2 ≤ i
  · simp [h2]
  · have hlow : (a.toNat % 2 ^ 2).testBit i = a.toNat.testBit i := by
      rw [Nat.testBit_mod_two_pow, decide_eq_true (Nat.lt_of_not_le h2), Bool.true_and]
    have hbit : a.getLsbD i = false := by
      rw [BitVec.getLsbD, ← hlow, show a.toNat % 2 ^ 2 = 0 from h, Nat.zero_testBit]
    simp [hbit]

/-- A well-formed transaction is on the bus as it was presented (0.6.3). -/
theorem onBus_of_wf {t : Transaction} (h : t.wf = true) : onBus t = t := by
  obtain ⟨addr, dir, lanes, data⟩ := t
  simp only [Transaction.wf, Bool.and_eq_true, Bool.or_eq_true, beq_iff_eq] at h
  obtain ⟨haddr, hlanes⟩ := h
  cases dir with
  | write => simp [onBus, and_wordMask_of_aligned haddr]
  | read => simp_all [onBus, and_wordMask_of_aligned haddr]

/-- The entry of a word address is found exactly where the list holds one (R5). -/
theorem findEntry_isSome_iff (l : List Entry) (a : Addr) : (findEntry l a).isSome = true ↔ ∃ e ∈ l, e.addr = a := by
  simp [findEntry, List.find?_isSome]

namespace State

variable {s : State}

/-- The room conditions fail exactly where the group is full: by its quota or for want of a free entry (R12, R13). -/
theorem hasRoom_eq_false_iff (s : State) (g : GroupNum) :
    s.hasRoom g = false ↔ (s.group g).quota ≤ (s.group g).occupancy ∨ Config.poolSize ≤ s.poolUsed := by
  have hpool : s.freeCount = 0 ↔ Config.poolSize ≤ s.poolUsed := Nat.sub_eq_zero_iff_le
  rw [← Bool.not_eq_true, hasRoom, Bool.and_eq_true, decide_eq_true_eq, decide_eq_true_eq, not_and_or, Nat.not_lt,
    Nat.not_lt, Nat.le_zero, hpool]

/-- A non-empty write to a STAGE window of a group in service is in ACTIVE presented for placement (R102). -/
theorem classify_of_staged_write {t : Transaction} {i : WindowNum} (hmode : s.mode = .active)
    (htail : s.isTailWrite t = false) (hwin : s.matchWindow t.addr = some i) (hkind : (s.windows.get i).kind = .stage)
    (hdir : t.dir = .write) (hlanes : t.lanes ≠ 0) (hon : (s.group (s.windows.get i).group).state ≠ .off) :
    s.classify t = s.present t i := by
  have hwrite : s.writeStaged t i = s.present t i := by rw [writeStaged, if_neg hlanes, hmode]
  simp [classify, htail, hmode, hwin, disposeIn, hkind, hon, hdir, hwrite]

/-- The state in which a taken transaction is classified: nothing has been answered to it yet (R101). -/
abbrev atTake (s : State) : State := { s with reply := none }

/-- Such a write is taken by a FREE port, and what follows its placement at once follows (R101). -/
theorem exec_take_of_staged_write {t : Transaction} {i : WindowNum} (hrun : s.run = .running) (hwf : t.wf = true)
    (hport : s.port = .free) (hmode : s.mode = .active) (htail : s.isTailWrite t = false)
    (hwin : s.matchWindow t.addr = some i) (hkind : (s.windows.get i).kind = .stage) (hdir : t.dir = .write)
    (hlanes : t.lanes ≠ 0) (hon : (s.group (s.windows.get i).group).state ≠ .off) :
    exec (.upstreamTransactionTake t) s = .next (s.settle (s.atTake.present t i)) := by
  have hruns : s.runs = true := by simp [runs, hrun]
  have htake : s.canTakeUpstream = true := by simp [canTakeUpstream, hport, hmode]
  rw [exec_take, happening, if_pos hruns, takeUpstream, if_pos htake, onBus_of_wf hwf,
    classify_of_staged_write (s := s.atTake) hmode htail hwin hkind hdir hlanes hon]

/-- A write that finds an entry of its word is merged into it, whatever the room (R11). -/
theorem present_of_hit {t : Transaction} {i : WindowNum}
    (hhit : ∃ e ∈ (s.group (s.windows.get i).group).filling, e.addr = t.addr) :
    s.present t i = (s.placeMerge (s.windows.get i).group t).answer .okWrite := by
  rw [present, if_pos ((findEntry_isSome_iff _ _).mpr hhit)]

/-- A write that finds no entry of its word and its group full is refused under policy REFUSE (R16, R107). -/
theorem present_of_full_refuse {t : Transaction} {i : WindowNum} (hpolicy : (s.windows.get i).fullPolicy = .refuse)
    (hmiss : ∀ e ∈ (s.group (s.windows.get i).group).filling, e.addr ≠ t.addr)
    (hfull : s.hasRoom (s.windows.get i).group = false) :
    s.present t i = s.refuseWrite (s.windows.get i).group (s.fullCause (s.windows.get i).group) t := by
  have hnone : ¬ (findEntry (s.group (s.windows.get i).group).filling t.addr).isSome = true := by
    rw [findEntry_isSome_iff]
    exact fun ⟨e, he, ha⟩ => hmiss e he ha
  simp [present, hnone, hfull, hpolicy]

end State

/-! ## What follows a happening that leaves the engine, the commit queue and the arbiter -/

/-- From `a` to `u` at most a record has begun and its first word has been granted: the answer, the port, the groups, the
initiator's place, the record queue and the lost count stand, and memory's port is as it was or carries the record. -/
structure AtMostRecordBegun (a u : State) : Prop where
  reply : u.reply = a.reply
  port : u.port = a.port
  groups : u.groups = a.groups
  initiatorPlace : u.arbiter.initiatorPlace = a.arbiter.initiatorPlace
  outstanding : u.arbiter.outstanding = a.arbiter.outstanding ∨ u.arbiter.owner = some .record
  queue : u.records.queue = a.records.queue
  lostCount : u.records.lostCount = a.records.lostCount

theorem Arbiter.waiting_eq_nil_iff (b : Arbiter) :
    b.waiting = [] ↔ b.drainPlace = none ∧ b.recordPlace = none ∧ b.initiatorPlace = none := by
  simp [Arbiter.waiting, grantOrder, Arbiter.place, List.filter_eq_nil_iff]

theorem Arbiter.waiting_eq_record {b : Arbiter} {q : Request} (hd : b.drainPlace = none) (hr : b.recordPlace = some q)
    (hi : b.initiatorPlace = none) : b.waiting = [.record] := by
  simp [Arbiter.waiting, grantOrder, Arbiter.place, hd, hr, hi]

namespace State

variable {s a : State}

/-- A record that may begin has its first word requested (R149). -/
theorem settleWriter_of_canBegin (h : a.canBeginRecord = true) :
    ∃ task q, a.settleWriter = a.writerRequest task q := by
  have hne : a.records.queue ≠ [] := by
    intro hnil
    simp [canBeginRecord, hnil] at h
  rw [settleWriter, if_pos h, beginRecord]
  obtain ⟨hnil, -⟩ | ⟨q, rest, -, heq⟩ := a.requestRecordWord_cases 0 a.records.producer a.records.sequence
  · exact absurd hnil hne
  · exact ⟨_, _, heq⟩

/-- The only request at an IDLE arbiter, where none stood before, is granted (R121). -/
theorem arbitrate_of_only_record (hidle : s.arbiter.outstanding = none) (hwait : s.arbiter.waiting = [])
    (hgrant : a.canGrant = true) (ha : a.arbiter.waiting = [.record]) : s.arbitrate a = a.grantTo .record := by
  simp [arbitrate, hgrant, hidle, hwait, grantArrivals, ha]

/-- The request of the ring writer, made where nothing else waits for an IDLE arbiter, begins a record at most (R121, R149). -/
theorem arbitrate_writerRequest (hs : s.canGrant = true → s.arbiter.waiting = []) (hmode : a.mode = s.mode)
    (harb : a.arbiter = s.arbiter) (task : WriterTask) (q : Request) :
    AtMostRecordBegun a (s.arbitrate (a.writerRequest task q)) := by
  have hgrant : (a.writerRequest task q).canGrant = s.canGrant := by
    simp [canGrant, writerRequest_eq, hmode, harb]
  by_cases hg : s.canGrant = true
  · obtain ⟨hd, -, hi⟩ := s.arbiter.waiting_eq_nil_iff.mp (hs hg)
    have hidle : s.arbiter.outstanding = none := by
      simp only [canGrant, Bool.and_eq_true, Option.isNone_iff_eq_none] at hg
      exact hg.1
    have hplace : (a.writerRequest task q).arbiter.recordPlace = some q := by rw [writerRequest_eq]
    have hwait : (a.writerRequest task q).arbiter.waiting = [.record] :=
      Arbiter.waiting_eq_record (by simp [writerRequest_eq, harb, hd]) hplace (by simp [writerRequest_eq, harb, hi])
    rw [arbitrate_of_only_record hidle (hs hg) (hgrant.trans hg) hwait, grantTo_record _ q hplace, writerRequest_eq]
    exact ⟨rfl, rfl, rfl, rfl, .inr rfl, rfl, rfl⟩
  · rw [arbitrate_of_no_grant _ s (fun h => absurd (hgrant.symm.trans h) hg), writerRequest_eq]
    exact ⟨rfl, rfl, rfl, rfl, .inl rfl, rfl, rfl⟩

/-- After a happening in ACTIVE that leaves the engine, the commit queue and the arbiter of a state where nothing was due, a
record begins at most. -/
theorem settle_atMostRecordBegun (hs : NothingDue s) (hactive : s.mode = .active) (hmode : a.mode = s.mode)
    (hengine : a.engine = s.engine) (hqueue : a.commitQueue = s.commitQueue) (harb : a.arbiter = s.arbiter) :
    AtMostRecordBegun a (s.settle a) := by
  obtain ⟨htake, -, -, -, hgrant⟩ := hs
  have htake' : a.canTake = false := by simpa only [canTake, hengine, hqueue, hmode] using htake
  have hflush : a.flushDone = false := by simp [flushDone, hmode, hactive]
  have hreset : a.softResetDone = false := by simp [softResetDone, hmode, hactive]
  have hsettle : s.settle a = (s.arbitrate a.settleWriter).refreshIrq := by
    rw [settle, takeNext_of_not_canTake a htake', settleFlush_of_not_done a hflush, settleSoftReset_of_not_done a hreset]
  suffices h : AtMostRecordBegun a (s.arbitrate a.settleWriter) by
    rw [hsettle]
    exact ⟨h.reply, h.port, h.groups, h.initiatorPlace, h.outstanding, h.queue, h.lostCount⟩
  by_cases hbegin : a.canBeginRecord = true
  · obtain ⟨task, q, heq⟩ := settleWriter_of_canBegin hbegin
    rw [heq]
    exact arbitrate_writerRequest hgrant hmode harb task q
  · have hcan : a.canGrant = s.canGrant := by simp only [canGrant, hmode, harb]
    rw [settleWriter_of_not_begin a (by simpa using hbegin),
      arbitrate_of_no_grant a s (by rw [hcan, harb]; exact hgrant)]
    exact ⟨rfl, rfl, rfl, rfl, .inl rfl, rfl, rfl⟩

end State

/-- Settles O43: a full group's write is presented and refused, and only a record can begin after it. -/
theorem fullGroupRefusesTheWrite : Obligations.FullGroupRefusesTheWrite := by
  intro s t i hs hrun hwf hport hmode htail hwin hkind hdir hlanes hpolicy g x cause record hon
  rw [State.exec_take_of_staged_write hrun hwf hport hmode htail hwin hkind hdir hlanes hon]
  refine ⟨fun hmiss hfull => ?_, fun hhit => ?_⟩
  · have hroom : s.atTake.hasRoom g = false := (State.hasRoom_eq_false_iff _ _).mpr hfull
    have hrefused : s.atTake.present t i = s.atTake.refuseWrite g cause t :=
      State.present_of_full_refuse (s := s.atTake) hpolicy hmiss hroom
    have hrecords : (s.atTake.refuseWrite g cause t).records = s.records.handOver record := rfl
    rw [RecordUnit.handOver_eq] at hrecords
    have h : AtMostRecordBegun (s.atTake.refuseWrite g cause t) (s.settle (s.atTake.present t i)) := by
      rw [hrefused]
      exact State.settle_atMostRecordBegun hs.1 hmode rfl rfl rfl rfl
    exact ⟨_, rfl, h.reply, h.port, h.groups, h.initiatorPlace, h.outstanding,
      h.queue.trans (congrArg RecordUnit.queue hrecords), h.lostCount.trans (congrArg RecordUnit.lostCount hrecords)⟩
  · have hmerged : s.atTake.present t i = (s.atTake.placeMerge g t).answer .okWrite :=
      State.present_of_hit (s := s.atTake) hhit
    have h : AtMostRecordBegun ((s.atTake.placeMerge g t).answer .okWrite) (s.settle (s.atTake.present t i)) := by
      rw [hmerged, State.placeMerge_eq]
      apply State.settle_atMostRecordBegun hs.1 hmode <;> rfl
    exact ⟨_, rfl, h.reply⟩

end Sys2Proof.Machine
end

section
/-! PROOF. O16 and O19, IDENTIFY and STATUS CLEAR, and the rules of a whole frame they rest on: a frame changes the link alone,
so on a settled device nothing is due after it; a read command is answered from its snapshot; and a write command either is
refused with its result or has its effect, which what follows at once then completes. -/

namespace Sys2Proof.Machine

/-! ## A whole frame on a ready link -/

namespace State

variable {s : State}

/-- The last result of a frame that has ended is the result of the command's own checks (R184). -/
@[simp] theorem framed_setResult (s : State) (r q : Result) (sent : List Byte) :
    (s.framed r sent).setResult q = s.framed q sent := rfl

/-- What is due does not depend on the link. -/
theorem nothingDue_setLink (h : NothingDue s) (l : Link) : NothingDue (s.setLink l) :=
  h.congr rfl rfl rfl rfl rfl rfl

/-- A frame that clears or sets no flag leaves a settled device settled (R159). -/
theorem settled_framed (h : Settled s) (r : Result) (sent : List Byte) : Settled (s.framed r sent) :=
  ⟨nothingDue_setLink h.1 _, h.2⟩

/-- After a change of the link alone, only the IRQ line follows (R159). -/
theorem settle_setLink (h : NothingDue s) (before : State) (l : Link) :
    before.settle (s.setLink l) = (s.setLink l).refreshIrq :=
  settle_of_nothingDue _ _ (nothingDue_setLink h l)

end State

section Frame

variable {s : State} {c : Command}

/-- A running device takes a frame's event, and what follows at once follows (R187). -/
theorem frameHappening_of_running (h : s.run = .running) (c : Command) (ev : FrameEvent) :
    frameHappening s c ev = .next (s.settle (c.on ev s)) := by
  have hruns : s.runs = true := by simp [State.runs, h]
  rw [frameHappening, if_pos hruns]

/-- A command that its own checks refuse gives its result and changes nothing else (R183 step 6, R184). -/
theorem Command.run_framed_of_refused {ps : List Byte} {q r : Result} {sent : List Byte}
    (h : c.check ps (s.framed q sent) = some r) : c.run ps (s.framed q sent) = s.framed r sent := by
  simp only [Command.run, h, State.framed_setResult]

/-- A command that its own checks accept has the result OK, and its effect (R183 step 6, R184). -/
theorem Command.run_framed_of_accepted {ps : List Byte} {q : Result} {sent : List Byte}
    (h : c.check ps (s.framed q sent) = none) : c.run ps (s.framed q sent) = c.effect ps (s.framed .ok sent) := by
  simp only [Command.run, h, State.framed_setResult]

/-- A whole frame of a read command without parameters and without a refusal answers with the snapshot's data and changes no
state (R182, R185). -/
theorem frameHappening_readCommand (hs : Settled s) (hl : LinkReady s) {code : Byte} {d : List Byte}
    (hform : commandForm code = some (.read 0)) (hd : s.snapshot code = .whole d) (ps : List Byte) :
    frameHappening s (readCommand code (fun _ _ => none)) (.whole ps) =
      .next (s.framed .ok (s.readSent d ps.length)) := by
  have hwhole : (readCommand code (fun _ _ => none)).whole ps s = s.framed .ok (s.readSent d ps.length) := by
    rw [Command.whole_read _ s hl hform d hd, Command.run_framed_of_accepted rfl]
    rfl
  rw [frameHappening_of_running hl.1, Command.on, hwhole, State.settle_of_settled _ _ (State.settled_framed hs _ _)]

/-- A whole frame of a write command that the command's own checks refuse (R183 step 6, R184). -/
theorem frameHappening_write_refused (hs : Settled s) (hl : LinkReady s) {ps : List Byte} {r : Result}
    (hform : commandForm c.code = some (.write ps.length))
    (hcheck : c.check ps (s.framed s.link.lastResult (s.writeSent ps.length)) = some r) :
    frameHappening s c (.whole ps) = .next (s.framed r (s.writeSent ps.length)) := by
  rw [frameHappening_of_running hl.1, Command.on, Command.whole_write c s hl _ hform ps rfl,
    Command.run_framed_of_refused hcheck, State.settle_of_settled _ _ (State.settled_framed hs _ _)]

/-- A whole frame of a write command that the command's own checks accept: the effect, and what follows it at once (R183
step 6, R184). -/
theorem frameHappening_write_accepted (hl : LinkReady s) {ps : List Byte}
    (hform : commandForm c.code = some (.write ps.length))
    (hcheck : c.check ps (s.framed s.link.lastResult (s.writeSent ps.length)) = none) :
    frameHappening s c (.whole ps) = .next (s.settle (c.effect ps (s.framed .ok (s.writeSent ps.length)))) := by
  rw [frameHappening_of_running hl.1, Command.on, Command.whole_write c s hl _ hform ps rfl,
    Command.run_framed_of_accepted hcheck]

end Frame

/-! ## IDENTIFY (R193) -/

theorem exec_identify (ev : FrameEvent) (s : State) : exec (.identify ev) s = frameHappening s identifyCommand ev := rfl

/-- The identity and the fixed sizes, byte by byte (R193). -/
theorem identifyData_bytes : identifyData = [0x46, 0x24, 0x08, 0x01, 0x01, 0x00, 0x08, 0x08, 0x10] := by decide

/-- Settles O16: IDENTIFY's snapshot is the identity whatever the state, and the read command changes nothing. -/
theorem identifyReturnsTheIdentity : Obligations.IdentifyReturnsTheIdentity := by
  intro s ps hs hl
  have hsnapshot : s.snapshot 0x01 = .whole identifyData := rfl
  rw [exec_identify, ← identifyData_bytes]
  exact frameHappening_readCommand hs hl rfl hsnapshot ps

/-! ## STATUS CLEAR (R191) -/

theorem exec_statusClear (ev : FrameEvent) (s : State) :
    exec (.statusClear ev) s = frameHappening s statusClearCommand ev := rfl

/-- The value of one byte is the byte's (R195). -/
@[simp] theorem beNat_singleton (b : Byte) : beNat [b] = b.toNat := by simp [beNat]

@[simp] theorem clearMaskOf_cons (m : Byte) (ps : List Byte) : clearMaskOf (m :: ps) = m := by
  simp [clearMaskOf, field]

/-- The refusals of STATUS CLEAR in their order, on its mask and its count (R191). -/
theorem checkStatusClear_pair (m c : Byte) (s : State) :
    checkStatusClear [m, c] s =
      if m.getLsbD 7 then some .param else if c ≠ s.link.changeCount then some .stale else none := by
  have hcount : field [m, c] 1 1 = c.toNat := beNat_singleton c
  simp only [checkStatusClear, clearMaskOf_cons, hcount, ne_eq, BitVec.toNat_inj]

/-- An accepted STATUS CLEAR changes the flags alone, and IRQ follows its condition (R159, R191). -/
theorem settle_effectStatusClear {s : State} (hs : Settled s) (m c : Byte) (sent : List Byte) :
    s.settle (effectStatusClear [m, c] (s.framed .ok sent)) =
      { s.framed .ok sent with
        link := { (s.framed .ok sent).link with flags := s.link.flags.clearMask m }
        irq := irqCondition s.records (s.link.flags.clearMask m) } := by
  rw [effectStatusClear, State.settle_setLink (State.settled_framed hs _ _).1, clearMaskOf_cons]
  rfl

/-- Settles O19: by the command's checks in their order, a refusal each for a bad mask and a stale count, and the effect where
neither holds. -/
theorem statusClearClearsTheNamedFlags : Obligations.StatusClearClearsTheNamedFlags := by
  intro s m c hs hl
  have hcheck := checkStatusClear_pair m c (s.framed s.link.lastResult (s.writeSent 2))
  rw [exec_statusClear]
  split
  case isTrue hmask =>
    rw [if_pos hmask] at hcheck
    exact frameHappening_write_refused hs hl rfl hcheck
  case isFalse hmask =>
    rw [if_neg hmask] at hcheck
    split
    case isTrue hstale => exact frameHappening_write_refused hs hl rfl (hcheck.trans (if_pos hstale))
    case isFalse hcurrent =>
      calc frameHappening s statusClearCommand (.whole [m, c])
          = .next (s.settle (effectStatusClear [m, c] (s.framed .ok (s.writeSent 2)))) :=
            frameHappening_write_accepted hl rfl (hcheck.trans (if_neg hcurrent))
        _ = _ := congrArg Host.Outcome.next (settle_effectStatusClear hs m c _)

end Sys2Proof.Machine
end

section
/-! The proofs below are elaborated one after another: elaborated side by side, the whole text comes close to the memory limit of its
check. -/
set_option Elab.async false

section
/-! PROOF. O5, that nothing which follows at once is due after a step. The takes end with a BUSY engine or an empty queue, for
what the flush queues behind them always asks for a step; then each of the completions, the beginning of a record and the grant
leaves its own condition false and those before it as they were. -/

namespace Sys2Proof.Machine

/-! ## What the group table's turn touches -/

/-- From `s` to `t` nothing changes but the groups, the commit queue, the record queue and the lost count. -/
def GroupTableOnly (s t : State) : Prop :=
  ∃ gs q rq n, t = { s with groups := gs, commitQueue := q, records := { s.records with queue := rq, lostCount := n } }

theorem GroupTableOnly.refl (s : State) : GroupTableOnly s s := ⟨_, _, _, _, rfl⟩

theorem GroupTableOnly.trans {s t u : State} (h : GroupTableOnly s t) (k : GroupTableOnly t u) : GroupTableOnly s u := by
  obtain ⟨_, _, _, _, rfl⟩ := h
  obtain ⟨_, _, _, _, rfl⟩ := k
  exact ⟨_, _, _, _, rfl⟩

theorem GroupTableOnly.engine {s t : State} (h : GroupTableOnly s t) : t.engine = s.engine := by
  obtain ⟨_, _, _, _, rfl⟩ := h; rfl

theorem GroupTableOnly.mode {s t : State} (h : GroupTableOnly s t) : t.mode = s.mode := by
  obtain ⟨_, _, _, _, rfl⟩ := h; rfl

namespace State

variable (s : State)

theorem groupTableOnly_modifyGroup (g : GroupNum) (f : Group → Group) : GroupTableOnly s (s.modifyGroup g f) :=
  ⟨_, _, _, _, rfl⟩

theorem groupTableOnly_enqueue (g : GroupNum) : GroupTableOnly s (s.enqueue g) := ⟨_, _, _, _, rfl⟩

theorem groupTableOnly_handOver (b : RecordBody) : GroupTableOnly s (s.handOver b) := by
  rw [handOver_eq, RecordUnit.handOver_eq]
  exact ⟨_, _, _, _, rfl⟩

theorem groupTableOnly_countOverrun (g : GroupNum) (cause : OverrunCause) (k : Nat) :
    GroupTableOnly s (s.countOverrun g cause k) :=
  (s.groupTableOnly_modifyGroup g _).trans (groupTableOnly_handOver _ _)

theorem groupTableOnly_checkPassedSeal (g : GroupNum) : GroupTableOnly s (s.checkPassedSeal g) := by
  unfold checkPassedSeal
  dsimp only
  split
  · exact .refl s
  · split
    · split
      · exact (s.groupTableOnly_modifyGroup g _).trans (groupTableOnly_countOverrun _ g _ _)
      · exact (s.groupTableOnly_modifyGroup g _).trans (groupTableOnly_countOverrun _ g _ _)
      · exact .refl s
      · exact .refl s
    · exact .refl s

theorem groupTableOnly_takeReturnState (g : GroupNum) : GroupTableOnly s (s.takeReturnState g) := by
  unfold takeReturnState
  dsimp only
  split
  · split
    · exact (s.groupTableOnly_modifyGroup g _).trans (groupTableOnly_checkPassedSeal _ g)
    · exact s.groupTableOnly_modifyGroup g _
  · exact s.groupTableOnly_modifyGroup g _

theorem groupTableOnly_flushSeal (g : GroupNum) : GroupTableOnly s (s.flushSeal g) :=
  (s.groupTableOnly_modifyGroup g _).trans (groupTableOnly_enqueue _ g)

theorem groupTableOnly_flushAfter (g : GroupNum) : GroupTableOnly s (s.flushAfter g) := by
  unfold flushAfter
  split
  · exact s.groupTableOnly_modifyGroup g _
  · exact s.groupTableOnly_flushSeal g

theorem groupTableOnly_afterEpoch (g : GroupNum) : GroupTableOnly s (s.afterEpoch g) := by
  unfold afterEpoch
  split
  · exact s.groupTableOnly_flushAfter g
  · exact s.groupTableOnly_takeReturnState g

theorem groupTableOnly_groupTurn (late : Option (GroupNum × RecordBody)) (done : List GroupNum) :
    GroupTableOnly s (s.groupTurn late done) :=
  s.groupTurn_induct (GroupTableOnly s) late done (.refl s) (fun a _ b _ h => h.trans (a.groupTableOnly_handOver b))
    (fun a g _ h => h.trans (a.groupTableOnly_afterEpoch g))

/-! ## The takes -/

/-- No take is due where the engine is BUSY, in RESETTING, and with an empty queue (R58). -/
theorem canTake_eq_false_iff : s.canTake = false ↔ s.engine ≠ none ∨ s.commitQueue = [] ∨ s.mode = .resetting := by
  cases he : s.engine <;> cases hq : s.commitQueue <;> simp [canTake, he, hq]

/-- A group with an outgoing entry is taken for a step (R58). -/
theorem takeOutcome_of_outgoing {x : Group} (h : x.outgoing ≠ []) : ∃ kind step, x.takeOutcome = .step kind step := by
  have hfirst : ∃ kind step, x.firstStep = .step kind step := by
    unfold Group.firstStep
    split
    · exact ⟨_, _, rfl⟩
    · simp [h]
  unfold Group.takeOutcome
  split
  · exact ⟨_, _, rfl⟩
  · split
    · exact hfirst
    · split
      · exact ⟨_, _, rfl⟩
      · exact hfirst

/-- Every queued group has an outgoing entry. -/
def QueuedHaveEntries (s : State) : Prop := ∀ g ∈ s.commitQueue, (s.group g).outgoing ≠ []

/-- The return of one group changes no outgoing list and queues nothing. -/
theorem takeReturnState_outgoing (g h : GroupNum) :
    (s.takeReturnState g).commitQueue = s.commitQueue ∧ ((s.takeReturnState g).group h).outgoing = (s.group h).outgoing := by
  have hmod : ∀ (a : State) (f : Group → Group), (∀ x, (f x).outgoing = x.outgoing) →
      (a.modifyGroup g f).commitQueue = a.commitQueue ∧ ((a.modifyGroup g f).group h).outgoing = (a.group h).outgoing := by
    intro a f hf
    refine ⟨rfl, ?_⟩
    rw [modifyGroup_group]
    split
    · next heq => rw [hf, heq]
    · rfl
  have hover : ∀ (a : State) (f : Group → Group) (k : Nat), (∀ x, (f x).outgoing = x.outgoing) →
      ((a.modifyGroup g f).countOverrun g .jump k).commitQueue = a.commitQueue ∧
        (((a.modifyGroup g f).countOverrun g .jump k).group h).outgoing = (a.group h).outgoing := by
    intro a f k hf
    obtain ⟨hq, ho⟩ := hmod a f hf
    have hc := (a.modifyGroup g f).modifyGroup_group g h (fun x => { x with overrunCount := satAdd x.overrunCount k })
    refine ⟨hq, ?_⟩
    rw [← ho, countOverrun, handOver_eq, setRecords_group, hc]
    split
    · next heq => rw [heq]
    · rfl
  have hcheck : ∀ a : State, (a.checkPassedSeal g).commitQueue = a.commitQueue ∧
      ((a.checkPassedSeal g).group h).outgoing = (a.group h).outgoing := by
    intro a
    unfold checkPassedSeal
    dsimp only
    split
    · exact ⟨rfl, rfl⟩
    · split
      · split
        · exact hover a _ _ (fun _ => rfl)
        · exact hover a _ _ (fun _ => rfl)
        · exact ⟨rfl, rfl⟩
        · exact ⟨rfl, rfl⟩
      · exact ⟨rfl, rfl⟩
  unfold takeReturnState
  dsimp only
  split
  · obtain ⟨hq, ho⟩ := hmod s (fun x => { x with state := .armed, returnState := .opened }) (fun _ => rfl)
    split
    · obtain ⟨hq', ho'⟩ := hcheck (s.modifyGroup g (fun x => { x with state := .armed, returnState := .opened }))
      exact ⟨hq'.trans hq, ho'.trans ho⟩
    · exact ⟨hq, ho⟩
  · exact hmod s _ (fun _ => rfl)

/-- What the flush queues after an epoch has entries (R169). -/
theorem queuedHaveEntries_afterEpoch (g : GroupNum) (h : QueuedHaveEntries s) : QueuedHaveEntries (s.afterEpoch g) := by
  unfold afterEpoch
  split
  · unfold flushAfter
    split
    · intro k hk
      rw [modifyGroup_group]
      split
      · next heq => exact heq ▸ h k hk
      · exact h k hk
    · next hfill =>
      intro k hk
      rw [flushSeal, enqueue_group, modifyGroup_group]
      split
      · simpa [Group.sealLists] using hfill
      · next hne =>
        simp only [flushSeal, enqueue_commitQueue, List.mem_append, List.mem_singleton] at hk
        exact h k (hk.resolve_right hne)
  · intro k hk
    obtain ⟨hq, ho⟩ := s.takeReturnState_outgoing g k
    exact ho ▸ h k (hq ▸ hk)

/-- The takes end with the group table's turn: after a take that made the engine BUSY, or with the queue empty. -/
theorem takeChain_ends (late : Option (GroupNum × RecordBody)) (n : Nat) :
    ∀ (s : State) (done : List GroupNum), s.commitQueue.length ≤ n →
      ∃ (u : State) (done' : List GroupNum), s.takeChain late done n = u.groupTurn late done' ∧ u.canTake = false := by
  induction n with
  | zero =>
    intro s done hn
    exact ⟨s, done, rfl, s.canTake_eq_false_iff.mpr (.inr (.inl (List.length_eq_zero_iff.mp (Nat.le_zero.mp hn))))⟩
  | succ n ih =>
    intro s done hn
    obtain ⟨h, heq⟩ | ⟨g, rest, -, hq, ⟨kind, step, -, heq⟩ | ⟨-, heq⟩⟩ := s.takeChain_succ_cases late done n
    · exact ⟨s, done, heq, h⟩
    · exact ⟨_, done, heq, (canTake_eq_false_iff _).mpr (.inl (by simp [requestStep_eq]))⟩
    · rw [heq]
      refine ih _ _ ?_
      rw [finishEpoch_eq]
      simpa [hq] using hn

/-- After one round of takes either none is due, or what is queued has been queued by the flush and has entries. -/
theorem takeAll_canTake_or : (s.takeAll none []).canTake = false ∨ QueuedHaveEntries (s.takeAll none []) := by
  obtain ⟨u, done, heq, hcan⟩ := takeChain_ends none s.commitQueue.length s [] le_rfl
  have htable := u.groupTableOnly_groupTurn none done
  rw [takeAll, heq]
  rcases (canTake_eq_false_iff u).mp hcan with he | hq | hm
  · exact .inl ((canTake_eq_false_iff _).mpr (.inl (htable.engine ▸ he)))
  · refine .inr (u.groupTurn_induct QueuedHaveEntries none done ?_ ?_ ?_)
    · intro g hg
      simp [hq] at hg
    · exact fun a _ b _ h => h
    · exact fun a g _ h => a.queuedHaveEntries_afterEpoch g h
  · exact .inl ((canTake_eq_false_iff _).mpr (.inr (.inr (htable.mode ▸ hm))))

/-- A round of takes whose queued groups have entries takes one at most, for a step. -/
theorem takeAll_canTake_of_entries (h : QueuedHaveEntries s) : (s.takeAll none []).canTake = false := by
  by_cases hcan : s.canTake = true
  · obtain ⟨n, hn⟩ : ∃ n, s.commitQueue.length = n + 1 := by
      cases hq : s.commitQueue with
      | nil => simp [canTake, hq] at hcan
      | cons g rest => exact ⟨rest.length, rfl⟩
    obtain ⟨hno, -⟩ | ⟨g, rest, -, hq, ⟨kind, step, -, heq⟩ | ⟨hdone, -⟩⟩ := s.takeChain_succ_cases none [] n
    · rw [hcan] at hno; cases hno
    · rw [takeAll, hn, heq, groupTurn_nil]
      exact (canTake_eq_false_iff _).mpr (.inl (by simp [requestStep_eq]))
    · obtain ⟨kind, step, hstep⟩ := takeOutcome_of_outgoing (h g (by simp [hq]))
      rw [hstep] at hdone; cases hdone
  · rw [takeAll_of_not_canTake s (by simpa using hcan)]
    simpa using hcan

/-- After the takes none is due (R58). -/
theorem canTake_takeNext : s.takeNext.canTake = false := by
  rcases s.takeAll_canTake_or with h | h
  · rw [takeNext, takeAll_of_not_canTake _ h]; exact h
  · exact takeAll_canTake_of_entries _ h

/-! ## The completions -/

theorem passHeld_fields : s.passHeld.mode = s.mode ∧ s.passHeld.engine = s.engine ∧ s.passHeld.commitQueue = s.commitQueue := by
  unfold passHeld
  split <;> exact ⟨rfl, rfl, rfl⟩

/-- The completion of the flush is not due after it, and makes no take due (R171). -/
theorem settleFlush_notDue (h : s.canTake = false) : s.settleFlush.canTake = false ∧ s.settleFlush.flushDone = false := by
  unfold settleFlush
  split
  · next hdone =>
    have hqueue : s.commitQueue = [] := by
      simp only [flushDone, Bool.and_eq_true, List.isEmpty_iff] at hdone
      exact hdone.1.2
    obtain ⟨hm, -, hq⟩ := (s.setMode .bypass).passHeld_fields
    exact ⟨(canTake_eq_false_iff _).mpr (.inr (.inl (hq.trans hqueue))), by simp [flushDone, completeFlush, hm]⟩
  · next hnot => exact ⟨h, by simpa using hnot⟩

theorem completeSoftReset_fields : s.completeSoftReset.mode = .bypass ∧ s.completeSoftReset.commitQueue = [] := by
  unfold completeSoftReset requestKept
  dsimp only
  split <;> exact ⟨rfl, rfl⟩

/-- The completion of the soft reset is not due after it, and makes nothing before it due (R174). -/
theorem settleSoftReset_notDue (ht : s.canTake = false) (hf : s.flushDone = false) :
    s.settleSoftReset.canTake = false ∧ s.settleSoftReset.flushDone = false ∧ s.settleSoftReset.softResetDone = false := by
  unfold settleSoftReset
  split
  · obtain ⟨hm, hq⟩ := s.completeSoftReset_fields
    exact ⟨(canTake_eq_false_iff _).mpr (.inr (.inl hq)), by simp [flushDone, hm], by simp [softResetDone, hm]⟩
  · next hnot => exact ⟨ht, hf, by simpa using hnot⟩

/-! ## The record and the grant -/

/-- The beginning of a record is not due after it, and makes nothing before it due (R149). -/
theorem settleWriter_notDue (ht : s.canTake = false) (hf : s.flushDone = false) (hr : s.softResetDone = false) :
    s.settleWriter.canTake = false ∧ s.settleWriter.flushDone = false ∧ s.settleWriter.softResetDone = false ∧
      s.settleWriter.canBeginRecord = false := by
  by_cases hb : s.canBeginRecord = true
  · obtain ⟨task, q, heq⟩ := settleWriter_of_canBegin hb
    rw [heq, writerRequest_eq]
    exact ⟨ht, hf, hr, by simp [canBeginRecord]⟩
  · rw [settleWriter_of_not_begin s (by simpa using hb)]
    exact ⟨ht, hf, hr, by simpa using hb⟩

/-- What is due before the grant does not become due by it, and the arbiter is BUSY after it (R121). -/
theorem grantTo_notDue {o : Owner} (hplace : (s.arbiter.place o).isSome = true) (ht : s.canTake = false)
    (hf : s.flushDone = false) (hb : s.canBeginRecord = false) : NothingDue (s.grantTo o) := by
  obtain ⟨q, hq⟩ := Option.isSome_iff_exists.mp hplace
  have hbusy : ∀ t : State, t.arbiter.outstanding.isSome = true → t.softResetDone = false ∧
      (t.canGrant = true → t.arbiter.waiting = []) := by
    intro t ht
    simp [softResetDone, canGrant, Option.isNone_eq_false_iff.mpr ht]
  cases o with
  | drain =>
    rw [grantTo_drain s q hq]
    refine ⟨?_, ?_, (hbusy _ rfl).1, hb, (hbusy _ rfl).2⟩
    · simpa [canTake] using ht
    · simpa [flushDone] using hf
  | record =>
    rw [grantTo_record s q hq]
    refine ⟨ht, hf, (hbusy _ rfl).1, ?_, (hbusy _ rfl).2⟩
    simpa [canBeginRecord, RecordUnit.free, RecordUnit.unconsumed] using hb
  | initiator =>
    rw [grantTo_initiator s q hq]
    exact ⟨ht, hf, (hbusy _ rfl).1, hb, (hbusy _ rfl).2⟩

theorem place_of_mem_waiting {o : Owner} (h : o ∈ s.arbiter.waiting) : (s.arbiter.place o).isSome = true :=
  (List.mem_filter.mp h).2

/-- An arbitration that finds the arbiter IDLE and a request waiting grants a waiting request; otherwise it grants none (R121,
R122). -/
theorem arbitrate_waiting_cases (before : State) :
    (before.arbitrate s = s ∧ (s.canGrant = true → s.arbiter.waiting = [])) ∨
      ∃ o ∈ s.arbiter.waiting, before.arbitrate s = s.grantTo o ∨ before.arbitrate s = s.nextChoice.grantTo o := by
  have harrivals : (s.grantArrivals = s ∧ s.arbiter.waiting = []) ∨
      ∃ o ∈ s.arbiter.waiting, s.grantArrivals = s.grantTo o ∨ s.grantArrivals = s.nextChoice.grantTo o := by
    unfold grantArrivals
    cases hw : s.arbiter.waiting with
    | nil => exact .inl ⟨rfl, rfl⟩
    | cons o rest =>
      cases rest with
      | nil => exact .inr ⟨o, by simp, .inl rfl⟩
      | cons p rest =>
        refine .inr ⟨_, ?_, .inr rfl⟩
        rw [List.getD_eq_getElem _ _ (Nat.mod_lt _ (by simp))]
        exact List.getElem_mem _
  unfold arbitrate
  by_cases hg : s.canGrant = true
  · rw [if_pos hg]
    split
    · unfold grantAtResponse
      split
      · exact harrivals.imp_left (fun ⟨h, hw⟩ => ⟨h, fun _ => hw⟩)
      · next o rest w rest' hin hw =>
        have ho : o ∈ s.arbiter.waiting := (List.mem_filter.mp (hin ▸ List.mem_cons_self)).1
        split
        · exact .inr ⟨o, ho, .inl rfl⟩
        · refine .inr ⟨_, ?_, .inr rfl⟩
          split
          · simp [hw]
          · exact ho
      · next hw => exact .inl ⟨rfl, fun _ => hw⟩
    · exact harrivals.imp_left (fun ⟨h, hw⟩ => ⟨h, fun _ => hw⟩)
  · exact .inl ⟨by simp [hg], fun h => absurd h hg⟩

/-- After the grant nothing is due (R121). -/
theorem arbitrate_notDue (before : State) (ht : s.canTake = false) (hf : s.flushDone = false)
    (hr : s.softResetDone = false) (hb : s.canBeginRecord = false) : NothingDue (before.arbitrate s) := by
  obtain ⟨heq, hw⟩ | ⟨o, ho, heq | heq⟩ := s.arbitrate_waiting_cases before
  · rw [heq]
    exact ⟨ht, hf, hr, hb, hw⟩
  · rw [heq]
    exact s.grantTo_notDue (s.place_of_mem_waiting ho) ht hf hb
  · rw [heq]
    exact s.nextChoice.grantTo_notDue (s.place_of_mem_waiting ho) ht hf hb

/-- What follows a happening at once leaves the device settled, whatever the happening was. -/
theorem settled_settle (before : State) : Settled (before.settle s) := by
  obtain ⟨ht, hf⟩ := settleFlush_notDue _ s.canTake_takeNext
  obtain ⟨ht, hf, hr⟩ := settleSoftReset_notDue _ ht hf
  obtain ⟨ht, hf, hr, hb⟩ := settleWriter_notDue _ ht hf hr
  exact ⟨(arbitrate_notDue _ before ht hf hr hb).congr rfl rfl rfl rfl rfl rfl, rfl⟩

end State

/-! ## What a command does, by the kind of its row -/

/-- Whether the device runs, the input levels, the link and the queue of commands may differ, and no more. -/
def SameInside (s t : State) : Prop :=
  ∃ run timebase link pending, link.flags = s.link.flags ∧
    t = { s with run := run, timebase := timebase, link := link, pending := pending }

theorem SameInside.settled {s t : State} (h : SameInside s t) (hs : Settled s) : Settled t := by
  obtain ⟨_, _, l, _, hl, rfl⟩ := h
  exact ⟨hs.1.congr rfl rfl rfl rfl rfl rfl, by rw [hl]; exact hs.2⟩

/-- The outcomes of a row: on a running device what the row does, and what follows at once; on another one at most a level or
the run state; or a reset of every block. -/
inductive Completes (s : State) : State → Prop where
  | settles (a : State) : Completes s (s.settle a)
  | inside (t : State) (h : SameInside s t) : Completes s t
  | resets (run : RunState) (flags : StatusFlags) (h : flags.tail = false ∧ flags.stall = false ∧ flags.ringerr = false) :
      Completes s (s.blocksReset run flags)

theorem SameInside.refl (s : State) : SameInside s s := ⟨_, _, _, _, rfl, rfl⟩

theorem completes_happening {s t : State} {f : State → State} (h : happening s f = .next t) : Completes s t := by
  unfold happening at h
  split at h <;> cases h
  · exact .settles _
  · exact .inside _ (.refl s)

theorem SameInside.selectLine (s : State) (ev : FrameEvent) : SameInside s (s.selectLine ev) := by
  cases ev with
  | whole _ => exact .refl s
  | clock _ => exact .refl s
  | fall => exact ⟨s.run, s.timebase, { s.link with selectLow := true }, s.pending, rfl, rfl⟩
  | rise => exact ⟨s.run, s.timebase, { s.link with selectLow := false }, s.pending, rfl, rfl⟩

theorem completes_frameHappening {s t : State} {c : Command} {ev : FrameEvent} (h : frameHappening s c ev = .next t) :
    Completes s t := by
  unfold frameHappening at h
  split at h <;> cases h
  · exact .settles _
  · exact .inside _ (.selectLine s ev)

/-- The command of the link that a row stands for, with what happens on the wires. -/
def linkCommandOf : Instr → Option (Command × FrameEvent)
  | .identify ev => some (identifyCommand, ev)
  | .statusRead ev => some (statusReadCommand, ev)
  | .statusClear ev => some (statusClearCommand, ev)
  | .modeSet ev => some (modeSetCommand, ev)
  | .softReset ev => some (softResetCommand, ev)
  | .tickSet ev => some (tickSetCommand, ev)
  | .timeSet ev => some (timeSetCommand, ev)
  | .timeRead ev => some (timeReadCommand, ev)
  | .cycleSet ev => some (cycleSetCommand, ev)
  | .windowSet ev => some (windowSetCommand, ev)
  | .windowRead ev => some (windowReadCommand, ev)
  | .groupSet ev => some (groupSetCommand, ev)
  | .groupArm ev => some (groupArmCommand, ev)
  | .groupDisarm ev => some (groupDisarmCommand, ev)
  | .groupCommitNow ev => some (groupCommitNowCommand, ev)
  | .groupDiscard ev => some (groupDiscardCommand, ev)
  | .groupOff ev => some (groupOffCommand, ev)
  | .groupRead ev => some (groupReadCommand, ev)
  | .groupRetry ev => some (groupRetryCommand, ev)
  | .groupAbandon ev => some (groupAbandonCommand, ev)
  | .ringSet ev => some (ringSetCommand, ev)
  | .ringRead ev => some (ringReadCommand, ev)
  | _ => none

theorem exec_of_linkCommand {i : Instr} {c : Command} {ev : FrameEvent} (h : linkCommandOf i = some (c, ev)) (s : State) :
    exec i s = frameHappening s c ev := by
  cases i <;> cases h <;> rfl

/-- What a row that is one happening of the device does. -/
def happeningOf : Instr → Option (State → State)
  | .upstreamTransactionTake t => some (fun a => a.takeUpstream t)
  | .tick => some State.tickUnlessFrozen
  | .sealPointReached g => some (fun a => if a.mode = .active then a.takeUpSeal g else a)
  | .commitInstantReached g => some (fun a => if a.mode = .active then a.takeUpCommit g else a)
  | .holdExpiry => some State.takeUpHold
  | .grant => some (fun a => if a.canGrant then a.grantHighest else a)
  | .drainTake => some State.takeNext
  | .recordBegin => some State.settleWriter
  | .heldWritePlacement => some State.reconsiderHeld
  | .flushComplete => some State.settleFlush
  | .softResetCompletion => some State.settleSoftReset
  | .drainStepResponse ok => some (fun a => a.drainResponse ok)
  | .recordWordResponse ok => some (fun a => a.recordResponse ok)
  | .headWordResponse ok => some (fun a => a.headWordAnswered ok)
  | .initiatorResponse ok data => some (fun a => a.initiatorResponse ok data)
  | _ => none

theorem exec_of_happening {i : Instr} {f : State → State} (h : happeningOf i = some f) (s : State) :
    exec i s = happening s f := by
  cases i <;> cases h <;> rfl

/-- The rows that are neither a frame of a command nor one happening of a running device. -/
theorem row_cases (i : Instr) :
    (∃ c ev, linkCommandOf i = some (c, ev)) ∨ (∃ f, happeningOf i = some f) ∨ (∃ code ev, i = .unknownCommand code ev) ∨
      (∃ bits, i = .frameError bits) ∨ (∃ e, i = .syncEdge e) ∨ i = .freezeBegin ∨ i = .freezeEnd ∨ i = .hardwareReset ∨
      i = .resetRise ∨ ∃ runs, i = .powerOn runs := by
  cases i <;> simp [linkCommandOf, happeningOf]

/-- Every row completes in one of these ways. -/
theorem completes_exec {i : Instr} {s t : State} (h : exec i s = .next t) : Completes s t := by
  obtain ⟨c, ev, hc⟩ | ⟨f, hf⟩ | ⟨code, ev, rfl⟩ | ⟨bits, rfl⟩ | ⟨e, rfl⟩ | rfl | rfl | rfl | rfl | ⟨runs, rfl⟩ := row_cases i
  · exact completes_frameHappening (exec_of_linkCommand hc s ▸ h)
  · exact completes_happening (exec_of_happening hf s ▸ h)
  · simp only [exec, execUnknownCommand] at h
    split at h
    · cases h; exact .inside _ (.refl s)
    · exact completes_frameHappening h
  · simp only [exec, execFrameError] at h
    split at h
    · cases h; exact .inside _ (.refl s)
    · split at h <;> cases h
      · exact .settles _
      · exact .inside _ (.refl s)
  · simp only [exec, execSyncEdge] at h
    split at h <;> cases h
    · exact .settles _
    · exact .inside _ ⟨_, _, _, _, rfl, rfl⟩
  · simp only [exec, execFreezeBegin] at h
    split at h <;> cases h
    · exact .settles _
    · exact .inside _ ⟨_, _, _, _, rfl, rfl⟩
  · simp only [exec, execFreezeEnd] at h
    split at h <;> cases h
    · exact .settles _
    · exact .inside _ ⟨_, _, _, _, rfl, rfl⟩
  · simp only [exec, execHardwareReset, State.resetFall] at h
    split at h <;> cases h
    · exact .resets _ _ ⟨rfl, rfl, rfl⟩
    · exact .inside _ (.refl s)
    · exact .inside _ (.refl s)
  · simp only [exec, execResetRise] at h
    cases h
    exact .inside _ ⟨_, _, _, _, rfl, rfl⟩
  · simp only [exec, execPowerOn, State.powerUp] at h
    cases h
    exact .resets _ _ ⟨rfl, rfl, rfl⟩

/-- Every block at its reset values has nothing due (R177). -/
theorem settled_blocksReset (s : State) (run : RunState) (flags : StatusFlags)
    (h : flags.tail = false ∧ flags.stall = false ∧ flags.ringerr = false) : Settled (s.blocksReset run flags) := by
  obtain ⟨ht, hs, hr⟩ := h
  have hirq : irqCondition RecordUnit.initial flags = false := by simp [irqCondition, RecordUnit.initial, ht, hs, hr]
  exact ⟨⟨rfl, rfl, rfl, rfl, fun _ => rfl⟩, hirq.symm⟩

theorem Completes.settled {s t : State} (h : Completes s t) (hs : Settled s) : Settled t := by
  cases h with
  | settles a => exact a.settled_settle s
  | inside _ h => exact h.settled hs
  | resets run flags h => exact settled_blocksReset s run flags h

/-- A step of a settled device leaves it settled. -/
theorem settled_step {s t : State} (hs : Settled s) (h : step s = .next t) : Settled t := by
  unfold step at h
  split at h
  · exact (completes_happening h).settled hs
  · next c rest _ => exact (completes_exec h).settled (SameInside.settled ⟨_, _, _, rest, rfl, rfl⟩ hs)

/-- The three terms of the IRQ condition, written out (R144, R159). -/
theorem irqCondition_iff (r : RecordUnit) (f : StatusFlags) :
    irqCondition r f = true ↔
      (r.enabled = true ∧ r.urgentMark ≠ none) ∨
        (r.enabled = true ∧ 0 < r.threshold ∧
          r.threshold ≤ (r.producer + r.capacity - r.consumer % r.capacity) % r.capacity) ∨
        (f.tail = true ∨ f.stall = true ∨ f.ringerr = true) := by
  simp only [irqCondition, Bool.or_eq_true, Bool.and_eq_true, decide_eq_true_eq, Option.isSome_iff_ne_none, or_assoc,
    and_assoc]
  rfl

/-- Settles O5: whatever the happening, what follows it at once leaves nothing due; the levels, the run state and the resets
make nothing due. -/
theorem stepKeepsNothingDue : Obligations.StepKeepsNothingDue := by
  intro s t hs h
  have ht := settled_step hs h
  exact ⟨ht, by rw [ht.2]; exact irqCondition_iff _ _⟩

end Sys2Proof.Machine
end

section
/-! PROOF. What a step can do, said once for the laws O6 to O11: every step is a run of moves, each an update of one or two
blocks with the condition the device makes it under. The moves carry the groups whose epochs have completed in the happening in
hand and that have yet to take their state after it (R62 step 6), for between a completion and the group table's turn such a
group is still DRAINING, or STALLED, with the engine IDLE. -/

namespace Sys2Proof.Machine

/-! ## What the laws see of a group and of the ring -/

/-- The groups agree in what the laws see of them: the state, the lists, the marker, the quota, and of the epoch whether it has
begun, is pending an abandon or has failed; and counts in range stay in range. -/
structure Group.Alike (x y : Group) : Prop where
  state : y.state = x.state
  marker : y.marker = x.marker
  quota : y.quota = x.quota
  filling : y.filling = x.filling
  outgoing : y.outgoing = x.outgoing
  begun : y.progress.begun = x.progress.begun
  pending : y.progress.abandonPending = x.progress.abandonPending
  faultStep : y.faultStep = x.faultStep
  overruns : x.overrunCount ≤ Config.countMax → y.overrunCount ≤ Config.countMax
  lates : x.lateCount ≤ Config.countMax → y.lateCount ≤ Config.countMax

theorem Group.Alike.refl (x : Group) : x.Alike x := ⟨rfl, rfl, rfl, rfl, rfl, rfl, rfl, rfl, id, id⟩

/-- The record unit `t` has no ring that `r` has not, and holds no more records and losses than it may. -/
structure RecordUnit.Within (r t : RecordUnit) : Prop where
  ring : t.enabled = true → r.enabled = true ∧ t.base = r.base ∧ t.capacity = r.capacity ∧ t.headAddr = r.headAddr ∧
    t.tailAddr = r.tailAddr
  queue : r.queue.length ≤ Config.recordQueueSize → t.queue.length ≤ Config.recordQueueSize
  lost : r.lostCount ≤ Config.countMax → t.lostCount ≤ Config.countMax

/-- The group after the end of its epoch but for its state (R62, R65). -/
def Group.epochEnded (x : Group) : Group :=
  { x with faultStep := none, progress := { x.progress with begun := false, abandonPending := false } }

/-- The held write reconsidered, with the LATE record of its placement not handed over (R20, R142). -/
def State.reconsiderUnreported (s : State) : State := s.reconsiderHeld.setRecords s.records

/-! ## The moves -/

/-- One move of the device, from a state with the groups `D` that await their state after a completed epoch. -/
inductive Move : State × Set GroupNum → State × Set GroupNum → Prop where
  /-- Nothing that a law sees changes. -/
  | outside (s : State) (D : Set GroupNum) (run : RunState) (reply : Option Reply) (link : Link) (irq : Bool) (due : Due)
      (choices : Nat) (pending : List Instr) :
      Move (s, D) ({ s with run := run, reply := reply, link := link, irq := irq, due := due, choices := choices
                            pending := pending }, D)
  /-- The timebase moves within its ranges (R74, R87). -/
  | timebase (s : State) (D : Set GroupNum) (t : Timebase) (h : TimebaseLaw s → TimebaseLaw (s.setTimebase t)) :
      Move (s, D) (s.setTimebase t, D)
  /-- The record unit takes or gives records, moves its indices or loses its ring (R142 to R158). -/
  | records (s : State) (D : Set GroupNum) (r : RecordUnit) (h : s.records.Within r) : Move (s, D) (s.setRecords r, D)
  /-- The ring is enabled at addresses that meet nothing (R145, R146). -/
  | enableRing (s : State) (D : Set GroupNum) (p : RingParams) (r : RecordUnit)
      (hbad : p.badValues = false) (hconflict : s.ringConflict p = false)
      (hhead : p.headAddr < 2 ^ 32) (htail : p.tailAddr < 2 ^ 32) (hr : (s.records.enable p).Within r) :
      Move (s, D) (s.setRecords r, D)
  /-- The arbiter takes or drops a request of the drain engine or the ring writer, grants one, or becomes IDLE (R119 to
  R123). -/
  | arbiter (s : State) (D : Set GroupNum) (a : Arbiter) (hplace : a.initiatorPlace = s.arbiter.initiatorPlace)
      (howner : a.owner = some .initiator → s.arbiter.owner = some .initiator) : Move (s, D) (s.setArbiter a, D)
  /-- The initiator path's request is granted (R121). -/
  | grantInitiator (s : State) (D : Set GroupNum) (a : Arbiter) (hplace : s.arbiter.initiatorPlace ≠ none)
      (hnone : a.initiatorPlace = none) : Move (s, D) (s.setArbiter a, D)
  /-- A watch context opens, closes or counts a grant (R132 to R135). -/
  | watch (s : State) (D : Set GroupNum) (w : Option WatchContext)
      (h : s.watch.all (fun c => decide (c.grantsAhead ≤ Config.countMax)) = true →
        w.all (fun c => decide (c.grantsAhead ≤ Config.countMax)) = true) : Move (s, D) ({ s with watch := w }, D)
  /-- A transaction passes: the port is PASSING and it is requested (R103, R112). -/
  | pass (s : State) (D : Set GroupNum) (t : Taken) (q : Request) (h : s.port.isPassing = false) :
      Move (s, D) ({ s with port := .passing t, arbiter := { s.arbiter with initiatorPlace := some q } }, D)
  /-- Memory's answer ends the initiator path's transaction (R123). -/
  | answered (s : State) (D : Set GroupNum) (h : s.arbiter.owner = some .initiator) :
      Move (s, D) ({ s with port := .free, arbiter := { s.arbiter with outstanding := none } }, D)
  /-- A write that is not passing is answered (R16, R19, R20). -/
  | freed (s : State) (D : Set GroupNum) (h : s.port.isPassing = false) : Move (s, D) (s.setPort .free, D)
  /-- A write is held for want of room (R17). -/
  | holdForRoom (s : State) (D : Set GroupNum) (t : Taken) (g : GroupNum) (n : Nat) (hfree : s.port.isPassing = false)
      (hon : (s.group g).state ≠ .off) (hmode : s.mode = .active) (hroom : s.hasRoom g = false)
      (hstaged : s.stagedFor g t.tx.addr = true) (hnew : findEntry (s.group g).filling t.tx.addr = none) :
      Move (s, D) (s.setPort (.held t g .room n), D)
  /-- A write is held in QUIESCING (R111). -/
  | holdForMode (s : State) (D : Set GroupNum) (t : Taken) (g : GroupNum) (n : Nat) (hfree : s.port.isPassing = false)
      (hon : (s.group g).state ≠ .off) (hmode : s.mode = .quiescing) : Move (s, D) (s.setPort (.held t g .mode n), D)
  /-- The hold count moves (R18). -/
  | countHold (s : State) (D : Set GroupNum) (t : Taken) (g : GroupNum) (r : HoldReason) (n m : Nat)
      (h : s.port = .held t g r n) : Move (s, D) (s.setPort (.held t g r m), D)
  /-- The initiator path's request is withdrawn, its transaction staying taken (R113). -/
  | withdrawInitiator (s : State) (D : Set GroupNum) (t t' : Taken) (h : s.port = .passing t) :
      Move (s, D) ({ s with port := .passing t', arbiter := { s.arbiter with initiatorPlace := none } }, D)
  /-- SOFT RESET: the mode becomes RESETTING, no write being held any more (R173). -/
  | resetting (s : State) (D : Set GroupNum) (h : ∀ t g r n, s.port ≠ .held t g r n) : Move (s, D) (s.setMode .resetting, D)
  /-- BYPASS gives way to ACTIVE (R164). -/
  | activate (s : State) (D : Set GroupNum) (h : s.mode = .bypass) : Move (s, D) (s.setMode .active, D)
  /-- The flush begins (R167). -/
  | beginFlush (s : State) (D : Set GroupNum) (h : s.mode = .active) :
      Move (s, D) ((s.setMode .quiescing).setPort s.port.holdForMode, D)
  /-- ACTIVE gives way to BYPASS at once (R164, R165). -/
  | bypassAtOnce (s : State) (h : s.bypassAtOnce = true) (hmode : s.mode = .active) :
      Move (s, ∅) ((s.setMode .bypass).disarmAll, ∅)
  /-- The flush completes (R171). -/
  | completeFlush (s : State) (h : s.flushDone = true) : Move (s, ∅) (s.completeFlush, ∅)
  /-- The soft reset completes (R174). -/
  | completeSoftReset (s : State) : Move (s, ∅) (s.completeSoftReset, ∅)
  /-- Every block takes its reset values (R176, R177). -/
  | blocksReset (s : State) (run : RunState) (flags : StatusFlags) : Move (s, ∅) (s.blocksReset run flags, ∅)
  /-- A window takes its values (R96 to R99). -/
  | window (s : State) (D : Set GroupNum) (i : WindowNum) (w : Window)
      (haccepts : s.acceptsWindowSet (s.windows.get i) = true)
      (hconflict : w.enabled = true → s.windowConflict i w.base.toNat w.size.toNat = false) :
      Move (s, D) ({ s with windows := s.windows.set i w }, D)
  /-- A group changes in nothing that a law sees. -/
  | tune (s : State) (D : Set GroupNum) (g : GroupNum) (y : Group) (h : (s.group g).Alike y) : Move (s, D) (s.setGroup g y, D)
  /-- A group OPEN or ARMED becomes the one or the other (R40, R45 to R47). -/
  | reopen (s : State) (D : Set GroupNum) (g : GroupNum) (y : Group) (st : GroupState)
      (hx : (s.group g).state = .opened ∨ (s.group g).state = .armed)
      (hst : st = .opened ∨ (st = .armed ∧ s.mode = .active)) (h : { s.group g with state := st }.Alike y) :
      Move (s, D) (s.setGroup g y, D)
  /-- An ARMED group seals (R33). -/
  | sealAtPoint (s : State) (D : Set GroupNum) (g : GroupNum) (y : Group) (hx : (s.group g).state = .armed) (hmode : s.mode = .active)
      (h : { (s.group g).sealLists with state := .sealed }.Alike y) : Move (s, D) (s.setGroup g y, D)
  /-- A SEALED group enters the commit queue (R34, R167). -/
  | commit (s : State) (D : Set GroupNum) (g : GroupNum) (y : Group) (hx : (s.group g).state = .sealed)
      (hmode : s.mode ≠ .bypass) (h : { s.group g with state := .queued }.Alike y) : Move (s, D) ((s.setGroup g y).enqueue g, D)
  /-- A group is sealed and enters the commit queue in one: at GROUP COMMIT NOW, and at the flush (R48, R167, R169). -/
  | sealAndQueue (s : State) (D : Set GroupNum) (g : GroupNum) (y : Group)
      (hx : (s.group g).state = .opened ∨ (s.group g).state = .armed ∨ g ∈ D) (hmode : s.mode ≠ .bypass)
      (h : { (s.group g).sealLists with state := .queued }.Alike y) :
      Move (s, D) ((s.setGroup g y).enqueue g, D \ {g})
  /-- A group takes its return state (R40, R169). -/
  | returns (s : State) (D : Set GroupNum) (g : GroupNum) (y : Group) (st : GroupState) (hx : g ∈ D)
      (hst : st = .opened ∨ st = .armed) (h : { s.group g with state := st }.Alike y) : Move (s, D) (s.setGroup g y, D \ {g})
  /-- The engine takes the head of the commit queue and asks for a step (R58). -/
  | takeStep (s : State) (D : Set GroupNum) (g : GroupNum) (rest : List GroupNum) (y : Group) (kind : DrainKind) (step : Step)
      (q : Request) (htake : s.canTake = true) (hqueue : s.commitQueue = g :: rest)
      (hout : (s.group g).takeOutcome = .step kind step)
      (h : { s.group g with state := .draining, progress := { (s.group g).progress with begun := true } }.Alike y) :
      Move (s, D) ({ s with
        commitQueue := rest, groups := s.groups.set g y
        engine := some { group := g, kind := kind, step := step, status := .requested }
        arbiter := { s.arbiter with drainPlace := some q } }, D)
  /-- The engine takes the head of the commit queue, whose epoch completes at the take (R58, R62). -/
  | takeDone (s : State) (D : Set GroupNum) (g : GroupNum) (rest : List GroupNum) (y : Group) (htake : s.canTake = true)
      (hqueue : s.commitQueue = g :: rest) (hout : (s.group g).takeOutcome = .completes)
      (h : { (s.group g).epochEnded with state := .draining }.Alike y) :
      Move (s, D) ({ s with commitQueue := rest, groups := s.groups.set g y }, insert g D)
  /-- The engine goes on to another step of the epoch (R60). -/
  | nextStep (s : State) (D : Set GroupNum) (c : DrainContext) (step : Step) (q : Request) (hc : s.engine = some c)
      (hstep : step = .finish → (s.group c.group).outgoing = []) :
      Move (s, D) ({ s with
        engine := some { group := c.group, kind := .epoch, step := step, status := .requested }
        arbiter := { s.arbiter with drainPlace := some q } }, D)
  /-- The engine's step is granted (R59). -/
  | stepStatus (s : State) (D : Set GroupNum) (c : DrainContext) (st : Status) (hc : s.engine = some c) :
      Move (s, D) (s.setEngine (some { c with status := st }), D)
  /-- The epoch in the engine completes (R62, R65). -/
  | finish (s : State) (D : Set GroupNum) (c : DrainContext) (y : Group) (hc : s.engine = some c)
      (hlast : c.step = .finish ∨ c.kind = .abandonEnd ∨ (s.group c.group).outgoing = [])
      (h : (s.group c.group).epochEnded.Alike y) :
      Move (s, D) ((s.setGroup c.group y).setEngine none, insert c.group D)
  /-- A step answered ERROR stalls its group (R63). -/
  | stall (s : State) (D : Set GroupNum) (c : DrainContext) (y : Group) (hc : s.engine = some c)
      (h : { s.group c.group with state := .stalled, faultStep := some c.step }.Alike y) :
      Move (s, D) ((s.setGroup c.group y).setEngine none, D)
  /-- A STALLED group goes back to the commit queue (R66). -/
  | requeue (s : State) (g : GroupNum) (y : Group) (hx : (s.group g).state = .stalled)
      (h : { s.group g with state := .queued }.Alike y) : Move (s, ∅) ((s.setGroup g y).enqueue g, ∅)
  /-- A STALLED group whose entries have been dropped waits in the commit queue for its abandoned END (R67). -/
  | pendAbandon (s : State) (g : GroupNum) (y : Group) (hx : (s.group g).state = .stalled)
      (hempty : (s.group g).outgoing = [])
      (h : { s.group g with
        state := .queued, progress := { (s.group g).progress with begun := false, abandonPending := true } }.Alike y) :
      Move (s, ∅) ((s.setGroup g y).enqueue g, ∅)
  /-- The epoch of a STALLED group whose entries have been dropped ends (R67). -/
  | closeAbandon (s : State) (g : GroupNum) (y : Group) (hx : (s.group g).state = .stalled)
      (hempty : (s.group g).outgoing = []) (h : (s.group g).epochEnded.Alike y) :
      Move (s, ∅) (s.setGroup g y, {g})
  /-- The held write is reconsidered (R20). -/
  | reconsider (s : State) (D : Set GroupNum) : Move (s, D) (s.reconsiderUnreported, D)
  /-- The oldest entry of a list is released, and the held write reconsidered (R4, R20). -/
  | release (s : State) (D : Set GroupNum) (g : GroupNum) (y : Group)
      (h : { s.group g with filling := (s.group g).filling.tail }.Alike y ∨
        { s.group g with outgoing := (s.group g).outgoing.tail }.Alike y) :
      Move (s, D) ((s.setGroup g y).reconsiderUnreported, D)
  /-- A group is configured, and the held write reconsidered (R42 to R44). -/
  | configure (s : State) (D : Set GroupNum) (g : GroupNum) (y : Group) (quota : Nat) (m : Option Addr) (fs : Option Step)
      (hx : (s.group g).state = .off ∨ (s.group g).state = .opened) (hquota : 1 ≤ quota)
      (hroom : (s.group g).state = .opened → (s.group g).occupancy ≤ quota)
      (hmarker : m.any (s.markerConflict g) = false) (hfs : fs = (s.group g).faultStep ∨ fs = none)
      (h : { s.group g with state := .opened, quota := quota, marker := m, faultStep := fs }.Alike y) :
      Move (s, D) ((s.setGroup g y).reconsiderUnreported, D)
  /-- An empty group goes out of service, no write being held for it (R22, R52). -/
  | turnOff (s : State) (D : Set GroupNum) (g : GroupNum) (y : Group)
      (hx : (s.group g).state = .opened ∨ (s.group g).state = .armed) (hf : (s.group g).filling = [])
      (ho : (s.group g).outgoing = []) (hheld : s.port.heldFor g = false) (h : { s.group g with state := .off }.Alike y) :
      Move (s, D) (s.setGroup g y, D)
  /-- A write is placed as a new entry (R12). -/
  | place (s : State) (D : Set GroupNum) (g : GroupNum) (y : Group) (e : Entry) (hport : s.port = .free)
      (hmode : s.mode = .active) (hon : (s.group g).state ≠ .off) (hroom : s.hasRoom g = true)
      (hnew : findEntry (s.group g).filling e.addr = none) (hstaged : s.stagedFor g e.addr = true)
      (h : { s.group g with filling := (s.group g).filling ++ [e] }.Alike y) : Move (s, D) (s.setGroup g y, D)
  /-- A write is merged into the entry of its word (R11). -/
  | merge (s : State) (D : Set GroupNum) (g : GroupNum) (y : Group) (l : List Entry) (hmode : s.mode = .active)
      (hon : (s.group g).state ≠ .off) (hl : l.map (·.addr) = (s.group g).filling.map (·.addr))
      (h : { s.group g with filling := l }.Alike y) : Move (s, D) (s.setGroup g y, D)

/-- The frame in hand stays as it is: the select line, the shifter, and the bits that data out has shown. -/
structure State.KeepsFrame (s t : State) : Prop where
  select : t.link.selectLow = s.link.selectLow
  shifter : t.link.shifter = s.link.shifter
  dataOut : t.link.dataOut = s.link.dataOut

/-- A move of the blocks behind the link. -/
abbrev InnerMove (p q : State × Set GroupNum) : Prop := Move p q ∧ p.1.KeepsFrame q.1

/-- A run of moves behind the link. -/
abbrev Moves (s : State) (D : Set GroupNum) (t : State) (E : Set GroupNum) : Prop :=
  Relation.ReflTransGen InnerMove (s, D) (t, E)

/-- A run of moves, of the link and behind it. -/
abbrev LinkMoves (s t : State) : Prop := Relation.ReflTransGen Move (s, ∅) (t, ∅)

end Sys2Proof.Machine
end

section
/-! PROOF. The operations of the blocks as runs of moves: the record unit, the store, the group table, the drain engine and what
follows a happening at once. -/

namespace Sys2Proof.Machine

/-! ## The record unit -/

namespace RecordUnit

variable (r : RecordUnit)

theorem Within.refl : r.Within r := ⟨fun h => ⟨h, rfl, rfl, rfl, rfl⟩, id, id⟩

theorem satAdd_le (a k : Nat) : satAdd a k ≤ Config.countMax := Nat.min_le_right _ _

theorem within_handOver (b : RecordBody) : r.Within (r.handOver b) := by
  rw [handOver_eq]
  refine ⟨fun h => ⟨h, rfl, rfl, rfl, rfl⟩, fun h => ?_, fun h => ?_⟩
  · dsimp only
    split
    · next hq => simpa using hq.2
    · exact h
  · dsimp only
    split
    · exact satAdd_le _ _
    · exact h

theorem within_appendLost (t : Time) : r.Within (r.appendLost t) := by
  rw [appendLost_eq]
  split
  · next hq => exact ⟨fun h => ⟨h, rfl, rfl, rfl, rfl⟩, fun _ => by simpa using hq.1, fun _ => Nat.zero_le _⟩
  · exact Within.refl r

theorem Within.trans {r t u : RecordUnit} (h : r.Within t) (k : t.Within u) : r.Within u := by
  refine ⟨fun hu => ?_, fun hq => k.queue (h.queue hq), fun hl => k.lost (h.lost hl)⟩
  obtain ⟨ht, h1, h2, h3, h4⟩ := k.ring hu
  obtain ⟨hr, k1, k2, k3, k4⟩ := h.ring ht
  exact ⟨hr, h1.trans k1, h2.trans k2, h3.trans k3, h4.trans k4⟩

/-- A record unit with the same ring and the same losses that has no more records. -/
theorem Within.of_fields {r t : RecordUnit} (he : t.enabled = r.enabled) (hb : t.base = r.base) (hc : t.capacity = r.capacity)
    (hh : t.headAddr = r.headAddr) (ht : t.tailAddr = r.tailAddr) (hq : t.queue.length ≤ r.queue.length)
    (hl : r.lostCount ≤ Config.countMax → t.lostCount ≤ Config.countMax) : r.Within t :=
  ⟨fun h => ⟨he ▸ h, hb, hc, hh, ht⟩, fun h => hq.trans h, hl⟩

theorem within_leaveHead (t : Time) : r.Within (r.leaveHead t) := by
  have htail : r.Within { r with queue := r.queue.tail } := .of_fields rfl rfl rfl rfl rfl (by simp) id
  exact htail.trans (within_appendLost _ t)

theorem within_advance : r.Within r.advance := .of_fields rfl rfl rfl rfl rfl le_rfl id

theorem within_disable : r.Within r.disable :=
  ⟨fun h => by simp [disable] at h, fun _ => Nat.zero_le _, fun _ => Nat.zero_le _⟩

end RecordUnit

/-! ## Runs of moves -/

theorem Moves.refl {s : State} {D : Set GroupNum} : Moves s D s D := Relation.ReflTransGen.refl

theorem State.KeepsFrame.trans {s t u : State} (h : s.KeepsFrame t) (k : t.KeepsFrame u) : s.KeepsFrame u :=
  ⟨k.select.trans h.select, k.shifter.trans h.shifter, k.dataOut.trans h.dataOut⟩

theorem Moves.single {s t : State} {D E : Set GroupNum} (h : Move (s, D) (t, E))
    (hl : s.KeepsFrame t) : Moves s D t E :=
  Relation.ReflTransGen.single ⟨h, hl⟩

theorem Moves.trans {s t u : State} {D E F : Set GroupNum} (h : Moves s D t E) (k : Moves t E u F) : Moves s D u F :=
  Relation.ReflTransGen.trans h k

theorem Moves.keepsFrame {s t : State} {D E : Set GroupNum} (h : Moves s D t E) : s.KeepsFrame t := by
  have hrun : ∀ p : State × Set GroupNum, Relation.ReflTransGen InnerMove (s, D) p → s.KeepsFrame p.1 := by
    intro p hp
    induction hp with
    | refl => exact ⟨rfl, rfl, rfl⟩
    | tail _ hm ih => exact ih.trans hm.2
  exact hrun (t, E) h

theorem LinkMoves.refl {s : State} : LinkMoves s s := Relation.ReflTransGen.refl

theorem LinkMoves.single {s t : State} (h : Move (s, ∅) (t, ∅)) : LinkMoves s t := Relation.ReflTransGen.single h

theorem LinkMoves.trans {s t u : State} (h : LinkMoves s t) (k : LinkMoves t u) : LinkMoves s u :=
  Relation.ReflTransGen.trans h k

theorem Moves.link {s t : State} (h : Moves s ∅ t ∅) : LinkMoves s t :=
  Relation.ReflTransGen.mono (p := Move) (fun _ _ hm => hm.1) _ _ h

theorem linkMoves_setLink (s : State) (l : Link) : LinkMoves s (s.setLink l) :=
  .single (.outside s ∅ s.run s.reply l s.irq s.due s.choices s.pending)

namespace State

variable (s : State) (D : Set GroupNum)

/-- The last result, the flags and the change count are not of the frame in hand. -/
theorem moves_setLink (l : Link) (h : s.KeepsFrame (s.setLink l)) : Moves s D (s.setLink l) D :=
  .single (.outside s D s.run s.reply l s.irq s.due s.choices s.pending) h

theorem moves_setDue (d : Due) : Moves s D (s.setDue d) D :=
  .single (.outside s D s.run s.reply s.link s.irq d s.choices s.pending) ⟨rfl, rfl, rfl⟩

theorem moves_reply (r : Option Reply) : Moves s D { s with reply := r } D :=
  .single (.outside s D s.run r s.link s.irq s.due s.choices s.pending) ⟨rfl, rfl, rfl⟩

theorem moves_nextChoice : Moves s D s.nextChoice D :=
  .single (.outside s D s.run s.reply s.link s.irq s.due (s.choices + 1) s.pending) ⟨rfl, rfl, rfl⟩

theorem moves_refreshIrq : Moves s D s.refreshIrq D :=
  .single (.outside s D s.run s.reply s.link (irqCondition s.records s.link.flags) s.due s.choices s.pending) ⟨rfl, rfl, rfl⟩

theorem moves_raise (f : Flag) : Moves s D (s.raise f) D := s.moves_setLink D _ ⟨rfl, rfl, rfl⟩

theorem keepsFrame_reconsiderUnreported {t : State} (h : s.KeepsFrame t) : s.KeepsFrame t.reconsiderUnreported := by
  unfold reconsiderUnreported
  obtain ⟨-, heq⟩ | ⟨tk, g, k, -, -, -, -, heq⟩ := t.reconsiderHeld_cases <;> rw [heq]
  · exact ⟨h.select, h.shifter, h.dataOut⟩
  · rw [placeNew_eq]
    exact ⟨h.select, h.shifter, h.dataOut⟩

theorem keepsFrame_passHeld : s.KeepsFrame s.passHeld := by
  unfold passHeld
  split <;> exact ⟨rfl, rfl, rfl⟩

theorem keepsFrame_completeFlush : s.KeepsFrame s.completeFlush :=
  KeepsFrame.trans (t := s.setMode .bypass) ⟨rfl, rfl, rfl⟩ (keepsFrame_passHeld _)

theorem keepsFrame_completeSoftReset : s.KeepsFrame s.completeSoftReset := by
  unfold completeSoftReset requestKept
  dsimp only
  split <;> exact ⟨rfl, rfl, rfl⟩

theorem moves_setRecords {r : RecordUnit} (h : s.records.Within r) : Moves s D (s.setRecords r) D := .single (.records s D r h) ⟨rfl, rfl, rfl⟩

theorem moves_handOver (b : RecordBody) : Moves s D (s.handOver b) D := s.moves_setRecords D (s.records.within_handOver b)

theorem moves_writer (w : Option (WriterTask × Status)) : Moves s D (s.setRecords { s.records with writer := w }) D :=
  s.moves_setRecords D (.of_fields rfl rfl rfl rfl rfl le_rfl id)

/-- A change of the places of the drain engine and the ring writer alone. -/
theorem moves_places (d r : Option Request) :
    Moves s D (s.setArbiter { s.arbiter with drainPlace := d, recordPlace := r }) D :=
  .single (.arbiter s D _ rfl id) ⟨rfl, rfl, rfl⟩

theorem moves_endTransaction : Moves s D s.endTransaction D := .single (.arbiter s D _ rfl (by simp [Arbiter.owner])) ⟨rfl, rfl, rfl⟩

theorem moves_writerRequest (t : WriterTask) (q : Request) : Moves s D (s.writerRequest t q) D :=
  (s.moves_writer D (some (t, .requested))).trans (moves_places _ D s.arbiter.drainPlace (some q))

theorem moves_writerIdle : Moves s D s.writerIdle D := s.moves_writer D none

theorem moves_requestRecordWord (k slot : Nat) (seq : BitVec 32) : Moves s D (s.requestRecordWord k slot seq) D := by
  obtain ⟨-, h⟩ | ⟨q, rest, -, h⟩ := s.requestRecordWord_cases k slot seq <;> rw [h]
  · exact s.moves_writerIdle D
  · exact s.moves_writerRequest D _ _

theorem moves_completeRecord (slot : Nat) : Moves s D (s.completeRecord slot) D := by
  unfold completeRecord
  exact (s.moves_setRecords D (s.records.within_advance.trans (s.records.advance.within_leaveHead s.time))).trans
    (moves_writerRequest _ D _ _)

theorem moves_abandonRecord : Moves s D s.abandonRecord D := by
  unfold abandonRecord
  dsimp only
  split
  · exact s.moves_setRecords D (.of_fields rfl rfl rfl rfl rfl (by simp) id)
  · refine (s.moves_setRecords D (.trans ?_ (RecordUnit.within_appendLost _ s.time))).trans (moves_raise _ D _)
    exact .of_fields rfl rfl rfl rfl rfl (by simp) (fun _ => RecordUnit.satAdd_le _ _)

theorem moves_recordWordResponse (k slot : Nat) (seq : BitVec 32) (ok : Bool) :
    Moves s D (s.recordWordResponse k slot seq ok) D := by
  unfold recordWordResponse
  split
  · exact s.moves_abandonRecord D
  · split
    · exact s.moves_requestRecordWord D _ _ _
    · exact s.moves_completeRecord D _

theorem moves_disownedResponse (again : Bool) : Moves s D (s.disownedResponse again) D := by
  unfold disownedResponse
  split
  · exact s.moves_writerRequest D _ _
  · exact s.moves_writerIdle D

theorem moves_recordResponse (ok : Bool) : Moves s D (s.recordResponse ok) D := by
  unfold recordResponse
  split
  · exact (s.moves_endTransaction D).trans (moves_recordWordResponse _ D _ _ _ _)
  · exact (s.moves_endTransaction D).trans (moves_disownedResponse _ D _)
  · exact .refl

theorem moves_headError (ok : Bool) : Moves s D (s.headError ok) D := by
  unfold headError
  split
  · exact .refl
  · exact s.moves_raise D _

theorem within_markUrgent (r : RecordUnit) (slot : Nat) (urgent : Bool) : r.Within (r.markUrgent slot urgent) := by
  unfold RecordUnit.markUrgent
  split
  · exact .of_fields rfl rfl rfl rfl rfl le_rfl id
  · exact .refl r

theorem headError_records (ok : Bool) : (s.headError ok).records = s.records := by
  unfold headError; split <;> rfl

theorem moves_headWordAnswered (ok : Bool) : Moves s D (s.headWordAnswered ok) D := by
  unfold headWordAnswered
  split
  · exact ((s.moves_endTransaction D).trans (moves_headError _ D ok)).trans (moves_writerIdle _ D)
  · next slot urgent _ _ _ =>
    refine ((s.moves_endTransaction D).trans (moves_headError _ D ok)).trans ((moves_setRecords _ D ?_).trans
      (moves_writerIdle _ D))
    rw [headError_records]
    exact within_markUrgent _ _ _
  · exact (s.moves_endTransaction D).trans (moves_disownedResponse _ D _)
  · exact .refl

theorem moves_settleWriter : Moves s D s.settleWriter D := by
  unfold settleWriter
  split
  · exact s.moves_requestRecordWord D _ _ _
  · exact .refl

/-! ## The store -/

/-- A run of moves that ends with the held write reconsidered may hand its LATE record over as well. -/
theorem moves_reconsidered {t : State} {E : Set GroupNum} (h : Moves s D t.reconsiderUnreported E) :
    Moves s D t.reconsiderHeld E := by
  refine h.trans (.single (.records t.reconsiderUnreported E t.reconsiderHeld.records ?_) ⟨rfl, rfl, rfl⟩)
  rw [reconsiderHeld_records]
  split
  · exact .refl _
  · exact t.records.within_handOver _

theorem moves_reconsiderHeld : Moves s D s.reconsiderHeld D := s.moves_reconsidered D (.single (.reconsider s D) (s.keepsFrame_reconsiderUnreported ⟨rfl, rfl, rfl⟩))

/-- So may it where the release belongs to a happening in which epochs complete (R142). -/
theorem moves_releasedInTurn {t : State} {E : Set GroupNum} (done : List GroupNum) (h : Moves s D t.reconsiderUnreported E) :
    Moves s D (t.releaseInTurn done).1 E := by
  obtain heq | ⟨_, _, _, -, -, -, -, heq⟩ := t.releaseInTurn_cases done <;> rw [heq]
  · exact s.moves_reconsidered D h
  · exact h

theorem moves_releaseFilling (g : GroupNum) : Moves s D (s.releaseFilling g) D :=
  s.moves_reconsidered D (.single (.release s D g _ (.inl (.refl _))) (keepsFrame_reconsiderUnreported _ ⟨rfl, rfl, rfl⟩))

theorem moves_releaseFillings (g : GroupNum) (n : Nat) : ∀ s : State, Moves s D (s.releaseFillings g n) D := by
  induction n with
  | zero => exact fun _ => .refl
  | succ n ih => exact fun s => (s.moves_releaseFilling D g).trans (ih _)

theorem moves_releaseOutgoing (g : GroupNum) : Moves s D (s.releaseOutgoing g) D :=
  s.moves_reconsidered D (.single (.release s D g _ (.inr (.refl _))) (keepsFrame_reconsiderUnreported _ ⟨rfl, rfl, rfl⟩))

theorem moves_releaseOutgoings (g : GroupNum) (done : List GroupNum) (n : Nat) :
    ∀ s : State, Moves s D (s.releaseOutgoings g done n).1 D := by
  induction n with
  | zero => exact fun _ => .refl
  | succ n ih =>
    intro s
    exact (s.moves_releasedInTurn D done (.single (.release s D g _ (.inr (.refl _))) (keepsFrame_reconsiderUnreported _ ⟨rfl, rfl, rfl⟩))).trans (ih _)

/-- The held write reconsidered touches of a group its filling list and its late count alone. -/
theorem reconsiderHeld_group (g : GroupNum) :
    ∃ l n, s.reconsiderHeld.group g = { s.group g with filling := l, lateCount := n } := by
  obtain ⟨-, heq⟩ | ⟨tk, h, k, -, -, -, -, heq⟩ := s.reconsiderHeld_cases <;> rw [heq]
  · exact ⟨_, _, rfl⟩
  · rw [answer_group, placeNew_eq]
    by_cases hg : g = h
    · subst hg
      exact ⟨_, _, Table8.get_set_self _ _ _⟩
    · exact ⟨_, _, Table8.get_set_ne _ _ hg⟩

theorem reconsiderHeld_fields : s.reconsiderHeld.engine = s.engine ∧ s.reconsiderHeld.mode = s.mode ∧
    s.reconsiderHeld.commitQueue = s.commitQueue ∧ s.reconsiderHeld.arbiter = s.arbiter := by
  obtain ⟨-, heq⟩ | ⟨tk, h, k, -, -, -, -, heq⟩ := s.reconsiderHeld_cases <;> rw [heq]
  · exact ⟨rfl, rfl, rfl, rfl⟩
  · rw [placeNew_eq]
    exact ⟨rfl, rfl, rfl, rfl⟩

theorem releaseInTurn_group (done : List GroupNum) (g : GroupNum) :
    ∃ l n, (s.releaseInTurn done).1.group g = { s.group g with filling := l, lateCount := n } := by
  obtain heq | ⟨_, _, _, -, -, -, -, heq⟩ := s.releaseInTurn_cases done <;> rw [heq]
  · exact s.reconsiderHeld_group g
  · exact s.reconsiderHeld_group g

theorem releaseInTurn_fields (done : List GroupNum) : (s.releaseInTurn done).1.engine = s.engine ∧
    (s.releaseInTurn done).1.mode = s.mode ∧ (s.releaseInTurn done).1.commitQueue = s.commitQueue ∧
    (s.releaseInTurn done).1.arbiter = s.arbiter := by
  obtain heq | ⟨_, _, _, -, -, -, -, heq⟩ := s.releaseInTurn_cases done <;> rw [heq]
  · exact s.reconsiderHeld_fields
  · exact s.reconsiderHeld_fields

/-- What `n` releases from the outgoing list of a group leave of that group. -/
theorem releaseOutgoings_group (g : GroupNum) (done : List GroupNum) (n : Nat) :
    ∀ s : State, ∃ l m, (s.releaseOutgoings g done n).1.group g =
      { s.group g with outgoing := (s.group g).outgoing.drop n, filling := l, lateCount := m } := by
  induction n with
  | zero => exact fun s => ⟨_, _, rfl⟩
  | succ n ih =>
    intro s
    obtain ⟨l, m, hfirst⟩ := (s.dropOutgoing g).releaseInTurn_group done g
    obtain ⟨l', m', hrest⟩ := ih ((s.dropOutgoing g).releaseInTurn done).1
    refine ⟨l', m', hrest.trans ?_⟩
    rw [hfirst, dropOutgoing, modifyGroup_group_self]
    simp [List.drop_tail]

/-! ## The group table -/

theorem moves_countOverrun (g : GroupNum) (cause : OverrunCause) (k : Nat) : Moves s D (s.countOverrun g cause k) D :=
  Moves.trans (.single (.tune s D g _
    (by exact ⟨rfl, rfl, rfl, rfl, rfl, rfl, rfl, rfl, fun _ => RecordUnit.satAdd_le _ _, id⟩)) ⟨rfl, rfl, rfl⟩) (moves_handOver _ D _)

theorem moves_sealGroup (g : GroupNum) (hx : (s.group g).state = .armed) (hm : s.mode = .active) :
    Moves s D (s.sealGroup g) D :=
  .single (.sealAtPoint s D g _ hx hm (by exact ⟨rfl, rfl, rfl, rfl, rfl, rfl, rfl, rfl, id, id⟩)) ⟨rfl, rfl, rfl⟩

theorem alike_committed (x : Group) (t : Time) : { x with state := .queued }.Alike (x.committed t) := by
  unfold Group.committed
  split <;> exact ⟨rfl, rfl, rfl, rfl, rfl, rfl, rfl, rfl, id, id⟩

theorem moves_commitGroup (g : GroupNum) (hx : (s.group g).state = .sealed) (hm : s.mode = .active) :
    Moves s D (s.commitGroup g) D := .single (.commit s D g _ hx (by simp [hm]) (alike_committed _ _)) ⟨rfl, rfl, rfl⟩

theorem alike_skipInstant (x : Group) : x.Alike x.skipInstant := by
  unfold Group.skipInstant
  split <;> exact ⟨rfl, rfl, rfl, rfl, rfl, rfl, rfl, rfl, id, id⟩

theorem moves_reachSealPoint (g : GroupNum) (hm : s.mode = .active) : Moves s D (s.reachSealPoint g) D := by
  obtain ⟨hx, heq⟩ | ⟨-, -, heq⟩ | heq := s.reachSealPoint_cases g <;> rw [heq]
  · exact s.moves_sealGroup D g hx hm
  · exact (s.moves_countOverrun D g .busy 1).trans (.single (.tune _ D g _ (alike_skipInstant _)) ⟨rfl, rfl, rfl⟩)

theorem reachSealPoint_mode (g : GroupNum) : (s.reachSealPoint g).mode = s.mode := by
  obtain ⟨-, heq⟩ | ⟨-, -, heq⟩ | heq := s.reachSealPoint_cases g <;> rw [heq] <;> rfl

theorem moves_reachCommitInstant (g : GroupNum) (hm : s.mode = .active) : Moves s D (s.reachCommitInstant g) D := by
  unfold reachCommitInstant
  split
  · next hx => exact s.moves_commitGroup D g hx hm
  · exact .refl

theorem reachCommitInstant_mode (g : GroupNum) : (s.reachCommitInstant g).mode = s.mode := by
  unfold reachCommitInstant; split <;> rfl

theorem moves_takeUpCommit (g : GroupNum) (hm : s.mode = .active) : Moves s D (s.takeUpCommit g) D := by
  unfold takeUpCommit
  split
  · exact (s.moves_setDue D _).trans (moves_reachCommitInstant _ D g hm)
  · exact .refl

theorem takeUpCommit_mode (g : GroupNum) : (s.takeUpCommit g).mode = s.mode := by
  unfold takeUpCommit
  split
  · exact reachCommitInstant_mode _ g
  · rfl

theorem moves_takeUpSeal (g : GroupNum) (hm : s.mode = .active) : Moves s D (s.takeUpSeal g) D := by
  unfold takeUpSeal
  split
  · have hdue := s.moves_setDue D { s.due with sealPoint := s.due.sealPoint.set g false }
    exact hdue.trans (Moves.trans (moves_reachSealPoint (s.setDue _) D g hm)
      (moves_takeUpCommit ((s.setDue _).reachSealPoint g) D g ((reachSealPoint_mode _ g).trans hm)))
  · exact .refl

theorem takeUpSeal_mode (g : GroupNum) : (s.takeUpSeal g).mode = s.mode := by
  unfold takeUpSeal
  split
  · exact (takeUpCommit_mode _ g).trans (reachSealPoint_mode _ g)
  · rfl

/-- A pass over the groups keeps what its step at each group keeps. -/
theorem forGroups_induct (P : State → Prop) (f : GroupNum → State → State) (h0 : P s) (hf : ∀ a g, P a → P (f g a)) :
    P (s.forGroups f) := by
  unfold forGroups
  generalize allGroups = l
  induction l generalizing s with
  | nil => exact h0
  | cons g l ih => exact ih _ (hf s g h0)

theorem moves_takeUpPoints_of_active (hm : s.mode = .active) : Moves s D s.takeUpPoints D := by
  refine (s.forGroups_induct (fun a => Moves s D a D ∧ a.mode = .active) _ ⟨.refl, hm⟩ ?_).1
  rintro a g ⟨ha, hma⟩
  have hseal := (a.takeUpSeal_mode g).trans hma
  exact ⟨ha.trans ((a.moves_takeUpSeal D g hma).trans (moves_takeUpCommit _ D g hseal)),
    ((a.takeUpSeal g).takeUpCommit_mode g).trans hseal⟩

/-- With no mark set no point is taken up. -/
theorem takeUpPoints_of_no_marks (hs : s.due.sealPoint = .fill false) (hc : s.due.commitInstant = .fill false) :
    s.takeUpPoints = s := by
  refine s.forGroups_induct (fun a => a = s) _ rfl ?_
  rintro a g rfl
  simp [takeUpSeal, takeUpCommit, hs, hc]

/-- The points of a timebase event are marked and taken up (R32, R142). -/
theorem moves_markedPoints (timeMoved posMoved : Bool) : Moves s D (s.markPoints timeMoved posMoved).takeUpPoints D := by
  by_cases hm : s.mode = .active
  · have hmark : s.markPoints timeMoved posMoved = s.setDue (s.markPoints timeMoved posMoved).due := by
      simp [markPoints, hm, setDue]
    rw [hmark]
    exact (s.moves_setDue D _).trans (moves_takeUpPoints_of_active _ D hm)
  · have hmark : s.markPoints timeMoved posMoved =
        s.setDue { s.due with sealPoint := .fill false, commitInstant := .fill false } := by simp [markPoints, hm]
    rw [hmark, takeUpPoints_of_no_marks _ rfl rfl]
    exact s.moves_setDue D _

theorem moves_jumpSeal (g : GroupNum) (t0 t1 : Time) (hm : s.mode = .active) :
    Moves s D (s.jumpSeal g t0 t1) D ∧ (s.jumpSeal g t0 t1).mode = .active := by
  unfold jumpSeal
  split
  · next h => exact ⟨s.moves_sealGroup D g h.1 hm, hm⟩
  · exact ⟨.refl, hm⟩

theorem moves_jumpCommit (g : GroupNum) (t0 t1 : Time) (hm : s.mode = .active) :
    Moves s D (s.jumpCommit g t0 t1) D ∧ (s.jumpCommit g t0 t1).mode = .active := by
  unfold jumpCommit
  split
  · next h => exact ⟨s.moves_commitGroup D g h.1 hm, hm⟩
  · exact ⟨.refl, hm⟩

theorem alike_advanceInstant (x : Group) (k : Nat) : x.Alike (x.advanceInstant k) :=
  ⟨rfl, rfl, rfl, rfl, rfl, rfl, rfl, rfl, id, id⟩

theorem alike_dropInstant (x : Group) : x.Alike x.dropInstant := ⟨rfl, rfl, rfl, rfl, rfl, rfl, rfl, rfl, id, id⟩

theorem moves_jumpOverrun (g : GroupNum) (t0 t1 : Time) :
    Moves s D (s.jumpOverrun g t0 t1) D ∧ (s.jumpOverrun g t0 t1).mode = s.mode := by
  unfold jumpOverrun
  dsimp only
  split
  · exact ⟨.refl, rfl⟩
  · split
    · split
      · exact ⟨Moves.trans (.single (.tune s D g _ (alike_advanceInstant _ _)) ⟨rfl, rfl, rfl⟩)
          (moves_countOverrun _ D g _ _), rfl⟩
      · exact ⟨Moves.trans (.single (.tune s D g _ (alike_dropInstant _)) ⟨rfl, rfl, rfl⟩)
          (moves_countOverrun _ D g _ _), rfl⟩
      · exact ⟨.refl, rfl⟩
      · exact ⟨.refl, rfl⟩
    · exact ⟨.refl, rfl⟩

theorem moves_jumpGroup (t0 t1 : Time) (g : GroupNum) (hm : s.mode = .active) :
    Moves s D (jumpGroup t0 t1 g s) D ∧ (jumpGroup t0 t1 g s).mode = .active := by
  unfold jumpGroup
  split
  · obtain ⟨h1, hm1⟩ := s.moves_jumpSeal D g t0 t1 hm
    obtain ⟨h2, hm2⟩ := moves_jumpCommit _ D g t0 t1 hm1
    obtain ⟨h3, hm3⟩ := moves_jumpOverrun ((s.jumpSeal g t0 t1).jumpCommit g t0 t1) D g t0 t1
    exact ⟨(h1.trans h2).trans h3, hm3.trans hm2⟩
  · exact ⟨.refl, hm⟩

/-! ### The end of an epoch -/

/-- The check of an ARMED group's seal point (R40). -/
theorem moves_checkPassedSeal (g : GroupNum) (hx : (s.group g).state = .armed) : Moves s D (s.checkPassedSeal g) D := by
  unfold checkPassedSeal
  dsimp only
  split
  · exact .refl
  · split
    · split
      · exact Moves.trans (.single (.tune s D g _ (alike_advanceInstant _ _)) ⟨rfl, rfl, rfl⟩)
          (moves_countOverrun _ D g _ _)
      · exact Moves.trans (.single (.reopen s D g _ .opened (.inr hx) (.inl rfl)
          (by exact ⟨rfl, rfl, rfl, rfl, rfl, rfl, rfl, rfl, id, id⟩)) ⟨rfl, rfl, rfl⟩) (moves_countOverrun _ D g _ _)
      · exact .refl
      · exact .refl
    · exact .refl

theorem moves_takeReturnState (g : GroupNum) (hg : g ∈ D) : Moves s D (s.takeReturnState g) (D \ {g}) := by
  unfold takeReturnState
  dsimp only
  split
  · have hback : Moves s D (s.modifyGroup g (fun x => { x with state := .armed, returnState := .opened })) (D \ {g}) :=
      .single (.returns s D g _ .armed hg (.inr rfl) (by exact ⟨rfl, rfl, rfl, rfl, rfl, rfl, rfl, rfl, id, id⟩)) ⟨rfl, rfl, rfl⟩
    split
    · exact hback.trans (moves_checkPassedSeal _ _ g (by rw [modifyGroup_group_self]))
    · exact hback
  · exact .single (.returns s D g _ .opened hg (.inl rfl) (by exact ⟨rfl, rfl, rfl, rfl, rfl, rfl, rfl, rfl, id, id⟩)) ⟨rfl, rfl, rfl⟩

theorem moves_flushSeal (g : GroupNum) (hx : (s.group g).state = .opened ∨ (s.group g).state = .armed ∨ g ∈ D)
    (hm : s.mode ≠ .bypass) : Moves s D (s.flushSeal g) (D \ {g}) :=
  .single (.sealAndQueue s D g _ hx hm (by exact ⟨rfl, rfl, rfl, rfl, rfl, rfl, rfl, rfl, id, id⟩)) ⟨rfl, rfl, rfl⟩

theorem moves_afterEpoch (g : GroupNum) (hg : g ∈ D) : Moves s D (s.afterEpoch g) (D \ {g}) := by
  unfold afterEpoch
  split
  · next hm =>
    unfold flushAfter
    split
    · exact .single (.returns s D g _ .opened hg (.inl rfl) (by exact ⟨rfl, rfl, rfl, rfl, rfl, rfl, rfl, rfl, id, id⟩)) ⟨rfl, rfl, rfl⟩
    · exact s.moves_flushSeal D g (.inr (.inr hg)) (by simp [hm])
  · exact s.moves_takeReturnState D g hg

theorem moves_handOverLate (late : Option (GroupNum × RecordBody)) (g : GroupNum) : Moves s D (s.handOverLate late g) D := by
  unfold handOverLate
  split
  · exact .refl
  · split
    · exact s.moves_handOver D _
    · exact .refl

/-- The group table's turn leaves no group awaiting its state (R62 step 6). -/
theorem moves_groupTurn (late : Option (GroupNum × RecordBody)) (done : List GroupNum) :
    Moves s {g | g ∈ done} (s.groupTurn late done) ∅ := by
  have hfold : ∀ (l : List GroupNum) (s : State), l.Nodup → Moves s {g | g ∈ done ∧ g ∈ l}
      (l.foldl (fun acc g =>
        let a := acc.handOverLate late g
        if done.contains g then a.afterEpoch g else a) s) ∅ := by
    intro l
    induction l with
    | nil =>
      intro s _
      have : {g | g ∈ done ∧ g ∈ ([] : List GroupNum)} = ∅ := by simp
      rw [this]
      exact .refl
    | cons g l ih =>
      intro s hl
      obtain ⟨hg, hl⟩ := List.nodup_cons.mp hl
      rw [List.foldl_cons]
      refine Moves.trans (E := {h | h ∈ done ∧ h ∈ l}) ?_ (ih _ hl)
      dsimp only
      split
      · next hc =>
        have hdone : g ∈ done := by simpa using hc
        have hset : {h | h ∈ done ∧ h ∈ g :: l} \ {g} = {h | h ∈ done ∧ h ∈ l} := by
          ext h
          simp only [Set.mem_sdiff, Set.mem_ofPred_eq, List.mem_cons, Set.mem_singleton_iff]
          constructor
          · rintro ⟨⟨h1, h2 | h2⟩, h3⟩
            · exact absurd h2 h3
            · exact ⟨h1, h2⟩
          · rintro ⟨h1, h2⟩
            exact ⟨⟨h1, .inr h2⟩, fun heq => hg (heq ▸ h2)⟩
        exact (s.moves_handOverLate _ late g).trans (hset ▸ moves_afterEpoch _ _ g ⟨hdone, List.mem_cons_self⟩)
      · next hc =>
        have hdone : g ∉ done := by simpa using hc
        have hset : {h | h ∈ done ∧ h ∈ g :: l} = {h | h ∈ done ∧ h ∈ l} := by
          ext h
          simp only [Set.mem_ofPred_eq, List.mem_cons]
          constructor
          · rintro ⟨h1, h2 | h2⟩
            · exact absurd (h2 ▸ h1) hdone
            · exact ⟨h1, h2⟩
          · rintro ⟨h1, h2⟩
            exact ⟨h1, .inr h2⟩
        rw [hset]
        exact s.moves_handOverLate _ late g
  have hall : {g | g ∈ done} = {g | g ∈ done ∧ g ∈ allGroups} := by
    ext g
    have : g ∈ allGroups := by revert g; decide
    simp [this]
  rw [hall]
  exact hfold allGroups s (by decide)

/-! ## The drain engine -/

theorem alike_epochDone (x : Group) : x.epochEnded.Alike { x with
    epoch := x.epoch + 1, faultStep := none, progress := x.progress.completed } :=
  ⟨rfl, rfl, rfl, rfl, rfl, rfl, rfl, rfl, id, id⟩

/-- The epoch in the engine completes, its entries written or dropped (R62). -/
theorem moves_finishEpoch (c : DrainContext) (hc : s.engine = some c)
    (hlast : c.step = .finish ∨ c.kind = .abandonEnd ∨ (s.group c.group).outgoing = []) :
    Moves s D (s.finishEpoch c.group) (insert c.group D) := by
  rw [finishEpoch_eq]
  refine Moves.trans (.single (.finish s D c _ hc hlast (alike_epochDone _)) ⟨rfl, rfl, rfl⟩) (moves_setRecords _ _ ?_)
  split
  · exact s.records.within_handOver _
  · exact .refl _

theorem moves_finishAbandon (c : DrainContext) (hc : s.engine = some c) (hkind : c.kind = .abandonEnd) :
    Moves s D (s.finishAbandon c.group) (insert c.group D) :=
  .single (.finish s D c _ hc (.inr (.inl hkind)) (by exact ⟨rfl, rfl, rfl, rfl, rfl, rfl, rfl, rfl, id, id⟩)) ⟨rfl, rfl, rfl⟩

/-- The takes that are due, and the group table's turn after them (R58, R62). -/
theorem moves_takeChain (late : Option (GroupNum × RecordBody)) (n : Nat) :
    ∀ (s : State) (done : List GroupNum), Moves s {g | g ∈ done} (s.takeChain late done n) ∅ := by
  induction n with
  | zero => exact fun s done => s.moves_groupTurn late done
  | succ n ih =>
    intro s done
    obtain ⟨-, h⟩ | ⟨g, rest, htake, hq, ⟨kind, step, hout, h⟩ | ⟨hout, h⟩⟩ := s.takeChain_succ_cases late done n
    · rw [h]; exact s.moves_groupTurn late done
    · rw [h]
      refine Moves.trans ?_ (moves_groupTurn _ late done)
      refine .single ?_ ⟨rfl, rfl, rfl⟩
      refine .takeStep s _ g rest _ kind step _ htake hq hout ⟨rfl, rfl, rfl, rfl, rfl, ?_, ?_, rfl, id, id⟩
      · dsimp only [Progress.taken]
        split
        · next hb => exact hb
        · rfl
      · dsimp only [Progress.taken]
        split <;> rfl
    · rw [h]
      have hset : {h | h ∈ g :: done} = insert g {h | h ∈ done} := by ext; simp
      refine Moves.trans ?_ (hset ▸ ih _ (g :: done))
      have hengine : s.engine = none := by
        simp only [canTake, Bool.and_eq_true, Option.isNone_iff_eq_none] at htake
        exact htake.1.1
      rw [finishEpoch_eq, ← hengine]
      simp only [group, Table8.get_set_self, Table8.set_set]
      refine Moves.trans (.single (.takeDone s _ g rest _ htake hq hout ?_) ⟨rfl, rfl, rfl⟩) (moves_setRecords { s with
        commitQueue := rest
        groups := s.groups.set g { s.group g with
          state := .draining, epoch := (s.group g).epoch + 1, faultStep := none
          progress := ((s.group g).progress.taken s.time).completed } } _ ?_)
      · exact ⟨rfl, rfl, rfl, rfl, rfl, rfl, rfl, rfl, id, id⟩
      · split
        · exact s.records.within_handOver _
        · exact .refl _

theorem moves_takeAll (late : Option (GroupNum × RecordBody)) (done : List GroupNum) :
    Moves s {g | g ∈ done} (s.takeAll late done) ∅ := moves_takeChain late _ s done

theorem moves_takeNext : Moves s ∅ s.takeNext ∅ := by
  have htake : ∀ a : State, Moves a ∅ (a.takeAll none []) ∅ := by
    intro a
    have hset : {g | g ∈ ([] : List GroupNum)} = ∅ := by simp
    exact hset ▸ a.moves_takeAll none []
  exact (htake s).trans (htake _)

/-- The epoch in the engine completes at a response (R62). -/
theorem moves_completeEpoch (late : Option (GroupNum × RecordBody)) (c : DrainContext) (hc : s.engine = some c)
    (hlast : c.step = .finish ∨ c.kind = .abandonEnd ∨ (s.group c.group).outgoing = []) :
    Moves s ∅ (s.completeEpoch late c.group) ∅ := by
  have hset : {g | g ∈ [c.group]} = insert c.group ∅ := by ext; simp
  exact (s.moves_finishEpoch ∅ c hc hlast).trans (hset ▸ moves_takeAll _ late [c.group])

theorem moves_completeAbandon (c : DrainContext) (hc : s.engine = some c) (hkind : c.kind = .abandonEnd) :
    Moves s ∅ (s.completeAbandon c.group) ∅ := by
  have hset : {g | g ∈ [c.group]} = insert c.group ∅ := by ext; simp
  exact (s.moves_finishAbandon ∅ c hc hkind).trans (hset ▸ moves_takeAll _ none [c.group])

theorem moves_requestNext (c : DrainContext) (step : Step) (hc : s.engine = some c)
    (hstep : step = .finish → (s.group c.group).outgoing = []) :
    Moves s D (s.requestStep c.group .epoch step) D := .single (.nextStep s D c step _ hc hstep) ⟨rfl, rfl, rfl⟩

/-- An entry leaves its list and is counted, in one update of its group (R8, R60). -/
theorem entryWritten_eq (g : GroupNum) :
    s.entryWritten g = s.setGroup g { s.group g with
      outgoing := (s.group g).outgoing.tail
      progress := { (s.group g).progress with entriesWritten := (s.group g).progress.entriesWritten + 1 } } := by
  simp only [entryWritten, dropOutgoing, modifyGroup_eq, setGroup, group, Table8.get_set_self, Table8.set_set]

theorem moves_entryWritten (c : DrainContext) (hc : s.engine = some c) :
    Moves s ∅ ((s.entryWritten c.group).afterEntry c.group) ∅ := by
  rw [entryWritten_eq]
  generalize hy : ({ s.group c.group with
      outgoing := (s.group c.group).outgoing.tail
      progress := { (s.group c.group).progress with
        entriesWritten := (s.group c.group).progress.entriesWritten + 1 } } : Group) = y
  have hrelease : Moves s ∅ (s.setGroup c.group y).reconsiderUnreported ∅ :=
    .single (.release s ∅ c.group y (.inr (hy ▸ (by exact ⟨rfl, rfl, rfl, rfl, rfl, rfl, rfl, rfl, id, id⟩))))
      (keepsFrame_reconsiderUnreported _ ⟨rfl, rfl, rfl⟩)
  obtain ⟨l, m, hgroup⟩ := (s.setGroup c.group y).reconsiderHeld_group c.group
  have hengine := (s.setGroup c.group y).reconsiderHeld_fields.1.trans hc
  have hout : (s.setGroup c.group y).reconsiderHeld.group c.group = { y with filling := l, lateCount := m } := by
    simpa using hgroup
  unfold afterEntry
  rw [group_setGroup_self]
  split
  · exact (s.moves_reconsidered ∅ hrelease).trans (moves_requestNext _ ∅ c .entry hengine (by simp))
  · next hempty =>
    have hnil : y.outgoing = [] := by simpa using hempty
    split
    · exact (s.moves_reconsidered ∅ hrelease).trans (moves_requestNext _ ∅ c .finish hengine (fun _ => by rw [hout]; exact hnil))
    · have hturn := (s.setGroup c.group y).releaseInTurn_fields (c.group :: (s.setGroup c.group y).completing)
      obtain ⟨l, m, hg⟩ := (s.setGroup c.group y).releaseInTurn_group (c.group :: (s.setGroup c.group y).completing) c.group
      refine (s.moves_releasedInTurn ∅ _ hrelease).trans (moves_completeEpoch _ _ c (hturn.1.trans hc) (.inr (.inr ?_)))
      rw [hg, group_setGroup_self]
      exact hnil

theorem moves_stepWritten (c : DrainContext) (hc : s.engine = some c) : Moves s ∅ (s.stepWritten c) ∅ := by
  obtain ⟨g, kind, step, st⟩ := c
  unfold stepWritten
  cases kind with
  | abandonEnd => exact s.moves_completeAbandon _ hc rfl
  | epoch =>
    cases step with
    | start =>
      dsimp only
      split
      · next h => exact s.moves_requestNext ∅ _ .finish hc (fun _ => by simpa using h)
      · exact s.moves_requestNext ∅ _ .entry hc (by simp)
    | entry => exact s.moves_entryWritten _ hc
    | finish => exact s.moves_completeEpoch none _ hc (.inl rfl)

theorem moves_stallGroup (c : DrainContext) (addr : Addr) (hc : s.engine = some c) :
    Moves s D (s.stallGroup c.group c.step addr) D := by
  rw [stallGroup_eq]
  refine Moves.trans (.single (.stall s D c { s.group c.group with
    faultStep := some c.step, faultAddr := addr, state := .stalled } hc ⟨rfl, rfl, rfl, rfl, rfl, rfl, rfl, rfl, id, id⟩) ⟨rfl, rfl, rfl⟩) ?_
  exact (moves_handOver _ D (.fault c.group s.time c.step addr)).trans (moves_raise _ D .stall)

theorem moves_drainResponse (ok : Bool) : Moves s ∅ (s.drainResponse ok) ∅ := by
  unfold drainResponse
  split
  · next q c _ hc =>
    refine (s.moves_endTransaction ∅).trans ?_
    unfold stepResponse
    split
    · unfold stepResponseInReset
      split
      · exact moves_releaseOutgoing _ ∅ _
      · exact .refl
    · split
      · exact moves_stepWritten _ c hc
      · exact moves_stallGroup _ ∅ c q.addr hc
  · exact .refl

/-! ### RETRY and ABANDON -/

theorem moves_requeue (g : GroupNum) (hx : (s.group g).state = .stalled) : Moves s ∅ (s.requeue g) ∅ :=
  .single (.requeue s g _ hx (by exact ⟨rfl, rfl, rfl, rfl, rfl, rfl, rfl, rfl, id, id⟩)) ⟨rfl, rfl, rfl⟩

theorem moves_abandonGroup (g : GroupNum) (hx : (s.group g).state = .stalled) : Moves s ∅ (s.abandonGroup g) ∅ := by
  have hdropped : ∀ done, ∃ l m, (s.releaseOutgoings g done (s.group g).outgoing.length).1.group g =
      { s.group g with outgoing := [], filling := l, lateCount := m } := by
    intro done
    obtain ⟨l, m, h⟩ := releaseOutgoings_group g done (s.group g).outgoing.length s
    exact ⟨l, m, by simpa using h⟩
  unfold abandonGroup
  dsimp only
  split
  · exact s.moves_requeue g hx
  · split
    · obtain ⟨l, m, hg⟩ := hdropped []
      generalize hr : (s.releaseOutgoings g [] (s.group g).outgoing.length).1 = r at hg
      refine (hr ▸ moves_releaseOutgoings ∅ g [] _ s).trans ((r.moves_handOver ∅
        (.abandoned g r.time ((r.group g).epoch + 1) (s.group g).outgoing.length)).trans (.single ?_ ⟨rfl, rfl, rfl⟩))
      simp only [pendAbandon, requeue, countAbandoned, modifyGroup_eq, setGroup, group, Table8.get_set_self, Table8.set_set]
      exact .pendAbandon _ g _ (by rw [handOver_eq, setRecords_group, hg]; exact hx)
        (by rw [handOver_eq, setRecords_group, hg]) (by exact ⟨rfl, rfl, rfl, rfl, rfl, rfl, rfl, rfl, id, id⟩)
    · obtain ⟨l, m, hg⟩ := hdropped [g]
      generalize hr : s.releaseOutgoings g [g] (s.group g).outgoing.length = r at hg
      have hset : {h | h ∈ [g]} = {g} := by ext; simp
      refine (hr ▸ moves_releaseOutgoings ∅ g [g] _ s).trans ((r.1.moves_handOver ∅
        (.abandoned g r.1.time ((r.1.group g).epoch + 1) (s.group g).outgoing.length)).trans
        (Moves.trans ?_ (hset ▸ moves_groupTurn _ r.2 [g])))
      refine .single ?_ ⟨rfl, rfl, rfl⟩
      simp only [countAbandoned, modifyGroup_eq, setGroup, group, Table8.get_set_self, Table8.set_set]
      exact .closeAbandon _ g _ (by rw [handOver_eq, setRecords_group, hg]; exact hx)
        (by rw [handOver_eq, setRecords_group, hg]) (by exact ⟨rfl, rfl, rfl, rfl, rfl, rfl, rfl, rfl, id, id⟩)

/-! ## The port -/

theorem moves_answer (r : Reply) (h : s.port.isPassing = false) : Moves s D (s.answer r) D :=
  Moves.trans (.single (.freed s D h) ⟨rfl, rfl, rfl⟩) (moves_reply _ D (some r))

theorem moves_refuseWrite (g : GroupNum) (cause : RefusedCause) (t : Transaction) (h : s.port.isPassing = false) :
    Moves s D (s.refuseWrite g cause t) D := (s.moves_handOver D _).trans (moves_answer _ D _ h)

theorem moves_expireHeld : Moves s D s.expireHeld D := by
  unfold expireHeld
  split
  · next h => exact s.moves_refuseWrite D _ _ _ (by rw [h]; rfl)
  · exact .refl
  · exact .refl

theorem moves_takeUpHold : Moves s D s.takeUpHold D := by
  unfold takeUpHold
  split
  · exact (s.moves_setDue D _).trans (moves_expireHeld _ D)
  · exact .refl

theorem moves_passHeld : Moves s D s.passHeld D := by
  unfold passHeld
  split
  · next h => exact .single (.pass s D _ _ (by rw [h]; rfl)) ⟨rfl, rfl, rfl⟩
  · exact .refl
  · exact .refl

/-! ## What follows at once -/

theorem moves_settleFlush : Moves s ∅ s.settleFlush ∅ := by
  unfold settleFlush
  split
  · next h => exact .single (.completeFlush s h) s.keepsFrame_completeFlush
  · exact .refl

theorem moves_settleSoftReset : Moves s ∅ s.settleSoftReset ∅ := by
  unfold settleSoftReset
  split
  · exact .single (.completeSoftReset s) s.keepsFrame_completeSoftReset
  · exact .refl

theorem moves_grantTo (o : Owner) : Moves s D (s.grantTo o) D := by
  have hwatch : Moves s D (s.countGrantAhead o) D := by
    unfold countGrantAhead
    split
    · exact .refl
    · exact .single (.watch s D _ (fun _ => by cases s.watch <;> simp [RecordUnit.satAdd_le])) ⟨rfl, rfl, rfl⟩
  have harb : (s.countGrantAhead o).arbiter = s.arbiter := by unfold countGrantAhead; split <;> rfl
  unfold grantTo
  generalize s.countGrantAhead o = a at hwatch harb
  refine hwatch.trans ?_
  rw [← harb]
  cases o with
  | drain =>
    have hstatus : Moves a D (a.markOutstanding .drain) D := by
      cases he : a.engine with
      | none =>
        have : a.markOutstanding .drain = a := by simp only [markOutstanding, setEngine, he, Option.map_none]; rw [← he]
        rw [this]
      | some c =>
        simp only [markOutstanding, he, Option.map_some]
        exact .single (.stepStatus a D c .outstanding he) ⟨rfl, rfl, rfl⟩
    refine hstatus.trans ?_
    unfold Arbiter.grant
    cases hp : a.arbiter.place .drain with
    | none => exact .single (.arbiter _ D _ rfl id) ⟨rfl, rfl, rfl⟩
    | some q => exact .single (.arbiter _ D _ rfl (by simp [Arbiter.owner])) ⟨rfl, rfl, rfl⟩
  | record =>
    refine (a.moves_writer D (a.records.writer.map (fun w => (w.1, .outstanding)))).trans ?_
    unfold Arbiter.grant
    cases hp : a.arbiter.place .record with
    | none => exact .single (.arbiter _ D _ rfl id) ⟨rfl, rfl, rfl⟩
    | some q => exact .single (.arbiter _ D _ rfl (by simp [Arbiter.owner])) ⟨rfl, rfl, rfl⟩
  | initiator =>
    unfold Arbiter.grant
    cases hp : a.arbiter.place .initiator with
    | none => exact .single (.arbiter _ D _ rfl id) ⟨rfl, rfl, rfl⟩
    | some q =>
      have hplace : a.arbiter.initiatorPlace ≠ none := by
        rw [show a.arbiter.initiatorPlace = some q from hp]
        simp
      exact .single (.grantInitiator _ D _ hplace rfl) ⟨rfl, rfl, rfl⟩

theorem moves_arbitrate (before : State) : Moves s D (before.arbitrate s) D := by
  obtain h | ⟨o, h | h⟩ := s.arbitrate_cases before
  · rw [h]
  · rw [h]; exact s.moves_grantTo D o
  · rw [h]; exact (s.moves_nextChoice D).trans (moves_grantTo _ D o)

theorem moves_settle (before : State) : Moves s ∅ (before.settle s) ∅ :=
  ((((s.moves_takeNext.trans (moves_settleFlush _)).trans (moves_settleSoftReset _)).trans (moves_settleWriter _ ∅)).trans
    (moves_arbitrate _ ∅ before)).trans (moves_refreshIrq _ ∅)

end State

end Sys2Proof.Machine
end

section
/-! PROOF. The commands as runs of moves: the frames of the link and the effects of their commands, the take of a transaction
and memory's answer to it, the events of the timebase, and the resets; and with them every step. -/

namespace Sys2Proof.Table8

theorem get_mem_toList {α : Type} (t : Table8 α) (i : Fin 8) : t.get i ∈ t.toList := by
  fin_cases i <;> simp [get, toList]

theorem mem_toList_iff {α : Type} (t : Table8 α) (a : α) : a ∈ t.toList ↔ ∃ i, t.get i = a := by
  constructor
  · intro h
    simp only [toList, List.mem_cons, List.not_mem_nil, or_false] at h
    rcases h with rfl | rfl | rfl | rfl | rfl | rfl | rfl | rfl
    exacts [⟨0, rfl⟩, ⟨1, rfl⟩, ⟨2, rfl⟩, ⟨3, rfl⟩, ⟨4, rfl⟩, ⟨5, rfl⟩, ⟨6, rfl⟩, ⟨7, rfl⟩]
  · rintro ⟨i, rfl⟩
    exact t.get_mem_toList i

theorem any_toList_iff {α : Type} (t : Table8 α) (p : α → Bool) : t.toList.any p = true ↔ ∃ i, p (t.get i) = true := by
  simp only [List.any_eq_true, mem_toList_iff]
  exact ⟨fun ⟨_, ⟨i, hi⟩, h⟩ => ⟨i, hi ▸ h⟩, fun ⟨i, h⟩ => ⟨_, ⟨i, rfl⟩, h⟩⟩

end Sys2Proof.Table8

namespace Sys2Proof.Machine

/-! ## Values of parameter bytes -/

/-- A run of bytes is below 256 to its length (R195). -/
theorem beNat_lt (bs : List Byte) : beNat bs < 256 ^ bs.length := by
  have h : ∀ (bs : List Byte) (acc : Nat), bs.foldl (fun acc b => acc * 256 + b.toNat) acc < (acc + 1) * 256 ^ bs.length := by
    intro bs
    induction bs with
    | nil => intro acc; simp
    | cons b bs ih =>
      intro acc
      have hb := b.isLt
      calc bs.foldl (fun acc b => acc * 256 + b.toNat) (acc * 256 + b.toNat)
          < (acc * 256 + b.toNat + 1) * 256 ^ bs.length := ih _
        _ ≤ (acc + 1) * 256 * 256 ^ bs.length := Nat.mul_le_mul_right _ (by omega)
        _ = (acc + 1) * 256 ^ (bs.length + 1) := by rw [Nat.pow_succ]; ring
  simpa [beNat] using h bs 0

theorem field_lt (ps : List Byte) (off len : Nat) : field ps off len < 256 ^ len :=
  (beNat_lt _).trans_le (Nat.pow_le_pow_right (by decide) (List.length_take_le _ _))

theorem field_four_lt (ps : List Byte) (off : Nat) : field ps off 4 < 2 ^ 32 := field_lt ps off 4

/-! ## Tables of eight -/

theorem mem_allGroups (g : Fin 8) : g ∈ allGroups := by revert g; decide

/-- The address that matches a STAGE window is staged for its group (R10, R95). -/
theorem State.stagedFor_of_matchWindow {s : State} {a : Addr} {i : WindowNum} (h : s.matchWindow a = some i)
    (hkind : (s.windows.get i).kind = .stage) : s.stagedFor (s.windows.get i).group a = true := by
  have hmatch : (s.windows.get i).matchesAddr a = true := by
    have := List.find?_some h
    simpa using this
  exact (Table8.any_toList_iff _ _).mpr ⟨i, by simp [hkind, hmatch]⟩

namespace State

variable (s : State) (D : Set GroupNum)

/-! ## The effects of the commands -/

/-- An effect on the group that the first parameter names, under the checks of that group (R41). -/
theorem moves_onGroup {ps : List Byte} {check : GroupNum → Option Result} {f : GroupNum → State}
    (hcheck : checkGroup ps check = none) (h : ∀ g, check g = none → Moves s ∅ (f g) ∅) : Moves s ∅ (onGroup ps s f) ∅ := by
  unfold checkGroup at hcheck
  unfold onGroup
  cases hn : paramNumber ps with
  | none => simp [hn] at hcheck
  | some g => exact h g (by simpa [hn] using hcheck)

theorem moves_flushAfter (g : GroupNum) (hx : (s.group g).state = .opened ∨ (s.group g).state = .armed)
    (hm : s.mode = .quiescing) : Moves s ∅ (s.flushAfter g) ∅ := by
  unfold flushAfter
  split
  · exact .single (.reopen s ∅ g _ .opened hx (.inl rfl) (by exact ⟨rfl, rfl, rfl, rfl, rfl, rfl, rfl, rfl, id, id⟩)) ⟨rfl, rfl, rfl⟩
  · have hempty : (∅ : Set GroupNum) \ {g} = ∅ := by simp
    have := s.moves_flushSeal ∅ g (by tauto) (by simp [hm])
    rwa [hempty] at this

theorem moves_flushGroup (g : GroupNum) (hm : s.mode = .quiescing) :
    Moves s ∅ (flushGroup g s) ∅ ∧ (flushGroup g s).mode = .quiescing := by
  have hafter : (s.flushAfter g).mode = .quiescing := (s.groupTableOnly_flushAfter g).mode.trans hm
  unfold flushGroup
  split
  · exact ⟨.refl, hm⟩
  · exact ⟨.refl, hm⟩
  · exact ⟨.refl, hm⟩
  · exact ⟨.refl, hm⟩
  · next hx => exact ⟨s.moves_flushAfter g (.inl hx) hm, hafter⟩
  · next hx => exact ⟨s.moves_flushAfter g (.inr hx) hm, hafter⟩
  · next hx =>
    exact ⟨.single (.commit s ∅ g _ hx (by simp [hm]) (by exact ⟨rfl, rfl, rfl, rfl, rfl, rfl, rfl, rfl, id, id⟩)) ⟨rfl, rfl, rfl⟩, hm⟩

theorem moves_beginFlush (hm : s.mode = .active) : Moves s ∅ s.beginFlush ∅ := by
  refine Moves.trans (.single (.beginFlush s ∅ hm) ⟨rfl, rfl, rfl⟩) ?_
  refine (forGroups_induct _ (fun a => Moves _ ∅ a ∅ ∧ a.mode = .quiescing) _ ⟨.refl, rfl⟩ ?_).1
  rintro a g ⟨ha, hma⟩
  obtain ⟨h, hm'⟩ := a.moves_flushGroup g hma
  exact ⟨ha.trans h, hm'⟩

theorem moves_effectModeSet (ps : List Byte) : Moves s ∅ (effectModeSet ps s) ∅ := by
  unfold effectModeSet
  split
  · next h => exact .single (.activate s ∅ h) ⟨rfl, rfl, rfl⟩
  · next h =>
    split
    · next hb => exact .single (.bypassAtOnce s hb h) ⟨rfl, rfl, rfl⟩
    · exact s.moves_beginFlush h
  · exact .refl

/-- The held write is answered before or after the mode becomes RESETTING alike. -/
theorem resetHeld_setMode (m : Mode) : (s.setMode m).resetHeld = s.resetHeld.setMode m := by
  unfold resetHeld
  rw [setMode_port]
  cases s.port <;> rfl

theorem moves_resetHeld : Moves s D s.resetHeld D := by
  unfold resetHeld
  split
  · next h => exact s.moves_refuseWrite D _ _ _ (by rw [h]; rfl)
  · exact .refl
  · exact .refl

theorem resetHeld_not_held : ∀ t g r n, s.resetHeld.port ≠ .held t g r n := by
  unfold resetHeld
  split
  · exact fun _ _ _ _ h => nomatch h
  · next h => intro _ _ _ _ h'; rw [h] at h'; exact nomatch h'
  · next h => intro _ _ _ _ h'; rw [h] at h'; exact nomatch h'

theorem moves_withdrawInitiator : Moves s D s.withdrawInitiator D := by
  unfold withdrawInitiator
  split
  · next t _ h _ =>
    exact Moves.trans (.single (.withdrawInitiator s D t { t with disposition := .pass, window := none } h) ⟨rfl, rfl, rfl⟩)
      (.single (.watch _ D none (by simp)) ⟨rfl, rfl, rfl⟩)
  · exact .refl

theorem moves_withdrawDrain : Moves s D s.withdrawDrain D := s.moves_places D none s.arbiter.recordPlace

theorem moves_withdrawRecord : Moves s D s.withdrawRecord D := by
  unfold withdrawRecord
  split
  · exact .refl
  · exact (s.moves_places D s.arbiter.drainPlace none).trans (moves_writerIdle _ D)

theorem moves_effectSoftReset (ps : List Byte) : Moves s ∅ (effectSoftReset ps s) ∅ := by
  unfold effectSoftReset
  rw [resetHeld_setMode]
  exact ((((s.moves_resetHeld ∅).trans (.single (.resetting _ ∅ s.resetHeld_not_held) ⟨rfl, rfl, rfl⟩)).trans
    (moves_withdrawInitiator _ ∅)).trans (moves_withdrawDrain _ ∅)).trans (moves_withdrawRecord _ ∅)

theorem moves_effectTickSet (ps : List Byte) : Moves s ∅ (effectTickSet ps s) ∅ := by
  refine .single (.timebase s ∅ _ ?_) ⟨rfl, rfl, rfl⟩
  rintro ⟨-, hcycle⟩
  refine ⟨?_, hcycle⟩
  simp only [setTimebase_timebase, divisorOf]
  split <;> omega

theorem moves_moveTime (t1 : Time) : Moves s ∅ (s.moveTime t1) ∅ := by
  have htime : Moves s ∅ (s.setTimebase { s.timebase with time := t1 }) ∅ := .single (.timebase s ∅ _ id) ⟨rfl, rfl, rfl⟩
  unfold moveTime
  dsimp only
  split
  · next h =>
    have hm : (s.setTimebase { s.timebase with time := t1 }).mode = .active := h.1
    generalize s.setTimebase { s.timebase with time := t1 } = a at htime hm ⊢
    refine htime.trans (forGroups_induct _ (fun b => Moves a ∅ b ∅ ∧ b.mode = .active) _ ⟨.refl, hm⟩ ?_).1
    rintro b g ⟨hb, hmb⟩
    obtain ⟨hj, hm'⟩ := b.moves_jumpGroup ∅ s.time t1 g hmb
    exact ⟨hb.trans hj, hm'⟩
  · exact htime

theorem moves_effectCycleSet (ps : List Byte) (h : checkCycleSet ps s = none) : Moves s ∅ (effectCycleSet ps s) ∅ := by
  have hlen : 2 ≤ (CycleParams.parse ps).length := by
    simp only [checkCycleSet] at h
    split at h
    · cases h
    · next hbad => omega
  refine .single (.timebase s ∅ _ ?_) ⟨rfl, rfl, rfl⟩
  rintro ⟨hcount, -⟩
  exact ⟨hcount, by simp only [setTimebase_timebase]; omega⟩

/-- The window that WINDOW SET's parameters give has their base and size. -/
theorem window_base_size {p : WindowParams} {w : Window} (h : p.window = some w) (hb : p.base < 2 ^ 32) (hs : p.size < 2 ^ 32) :
    w.base.toNat = p.base ∧ w.size.toNat = p.size := by
  simp only [WindowParams.window, Option.bind_eq_bind, Option.bind_eq_some_iff, Option.pure_def, Option.some.injEq] at h
  obtain ⟨_, -, _, -, _, -, _, -, _, -, _, -, _, -, rfl⟩ := h
  exact ⟨by simpa using hb, by simpa using hs⟩

theorem moves_effectWindowSet (ps : List Byte) (h : checkWindowSet ps s = none) : Moves s ∅ (effectWindowSet ps s) ∅ := by
  unfold effectWindowSet
  dsimp only
  cases hn : (WindowParams.parse ps).number with
  | none => exact .refl
  | some i =>
    cases hw : (WindowParams.parse ps).window with
    | none => exact .refl
    | some w =>
      simp only [checkWindowSet, hn, hw] at h
      split at h
      · cases h
      · next haccepts =>
        split at h
        · cases h
        · split at h
          · cases h
          · next hconflict =>
            obtain ⟨hb, hs⟩ := window_base_size hw (field_four_lt _ _) (field_four_lt _ _)
            refine .single (.window s ∅ i w (by simpa using haccepts) (fun he => ?_)) ⟨rfl, rfl, rfl⟩
            rw [hb, hs]
            simpa [he] using hconflict

/-- What the checks of GROUP SET leave of its parameters (R42). -/
theorem checkGroupSet_none {ps : List Byte} {g : GroupNum} {c : GroupConfig} (hn : (GroupParams.parse ps).number = some g)
    (hc : (GroupParams.parse ps).config = some c) (h : checkGroupSet ps s = none) :
    ((s.group g).state = .off ∨ (s.group g).state = .opened) ∧ (GroupParams.parse ps).badValues (s.group g) c = false ∧
      c.marker.any (s.markerConflict g) = false := by
  simp only [checkGroupSet, hn, hc] at h
  split at h
  · cases h
  · next hstate =>
    split at h
    · cases h
    · next hbad =>
      split at h
      · cases h
      · next hconflict => exact ⟨by tauto, by simpa using hbad, by simpa using hconflict⟩

theorem config_quota {p : GroupParams} {c : GroupConfig} (h : p.config = some c) : c.quota = p.quota := by
  simp only [GroupParams.config, Option.bind_eq_bind, Option.bind_eq_some_iff, Option.pure_def, Option.some.injEq] at h
  obtain ⟨_, -, _, -, _, -, _, -, rfl⟩ := h
  rfl

theorem alike_afterSet (x : Group) (c : GroupConfig) (hx : x.state = .off ∨ x.state = .opened) :
    { x with
      state := .opened, quota := c.quota, marker := c.marker
      faultStep := if x.state = GroupState.off then none else x.faultStep }.Alike (x.afterSet c) := by
  unfold Group.afterSet
  split
  · next hoff =>
    exact ⟨rfl, rfl, rfl, rfl, rfl, rfl, rfl, rfl, fun _ => Nat.zero_le _, fun _ => Nat.zero_le _⟩
  · next hoff => exact ⟨hx.resolve_left hoff, rfl, rfl, rfl, rfl, rfl, rfl, rfl, id, id⟩

theorem moves_effectGroupSet (ps : List Byte) (h : checkGroupSet ps s = none) : Moves s ∅ (effectGroupSet ps s) ∅ := by
  unfold effectGroupSet
  dsimp only
  cases hn : (GroupParams.parse ps).number with
  | none => exact .refl
  | some g =>
    cases hc : (GroupParams.parse ps).config with
    | none => exact .refl
    | some c =>
      obtain ⟨hx, hbad, hmarker⟩ := s.checkGroupSet_none hn hc h
      have hquota := config_quota hc
      simp only [GroupParams.badValues, Bool.or_eq_false_iff, beq_eq_false_iff_ne, Bool.and_eq_false_iff,
        decide_eq_false_iff_not, Nat.not_lt] at hbad
      obtain ⟨⟨⟨⟨hpos, -⟩, hroom⟩, -⟩, -⟩ := hbad
      refine s.moves_reconsidered ∅ (.single (.configure s ∅ g _ c.quota c.marker
        (if (s.group g).state = .off then none else (s.group g).faultStep) hx (by omega)
        (fun ho => by rcases hroom with hr | hr <;> [exact absurd ho hr; exact hquota ▸ hr]) hmarker ?_ ?_)
        (keepsFrame_reconsiderUnreported _ ⟨rfl, rfl, rfl⟩))
      · split <;> simp
      · exact alike_afterSet _ c hx

theorem moves_armTimed (g : GroupNum) (i : Time) (hm : s.mode = .active) (hx : (s.group g).state = .opened) :
    Moves s ∅ (s.armTimed g i) ∅ := by
  have harm : Moves s ∅ (s.modifyGroup g (fun x => { x with nextInstant := some i, state := .armed })) ∅ :=
    .single (.reopen s ∅ g _ .armed (.inl hx) (.inr ⟨rfl, hm⟩)
      (by exact ⟨rfl, rfl, rfl, rfl, rfl, rfl, rfl, rfl, id, id⟩)) ⟨rfl, rfl, rfl⟩
  unfold armTimed
  dsimp only
  split
  · exact harm.trans (moves_sealGroup _ ∅ g (by rw [modifyGroup_group_self]) hm)
  · exact harm

theorem moves_effectGroupArm (ps : List Byte) (h : checkGroupArm ps s = none) : Moves s ∅ (effectGroupArm ps s) ∅ := by
  refine s.moves_onGroup h (fun g hg => ?_)
  have hready : ∀ {r : Option Result}, (if s.mode ≠ .active ∨ (s.group g).state ≠ .opened then some Result.state else r) = none →
      s.mode = .active ∧ (s.group g).state = .opened := by
    intro r hr
    by_contra hcon
    rw [if_pos (by tauto)] at hr
    cases hr
  unfold checkArm at hg
  unfold arm
  cases ht : (s.group g).trigger with
  | manual => exact .refl
  | oneshot =>
    rw [ht] at hg
    obtain ⟨hm, hx⟩ := hready hg
    exact s.moves_armTimed g _ hm hx
  | periodic =>
    rw [ht] at hg
    obtain ⟨hm, hx⟩ := hready hg
    exact s.moves_armTimed g _ hm hx
  | cycle =>
    rw [ht] at hg
    obtain ⟨hm, hx⟩ := hready hg
    exact .single (.reopen s ∅ g _ .armed (.inl hx) (.inr ⟨rfl, hm⟩)
      (by exact ⟨rfl, rfl, rfl, rfl, rfl, rfl, rfl, rfl, id, id⟩)) ⟨rfl, rfl, rfl⟩

theorem moves_effectGroupDisarm (ps : List Byte) (h : checkGroupDisarm ps s = none) :
    Moves s ∅ (effectGroupDisarm ps s) ∅ := by
  refine s.moves_onGroup h (fun g _ => ?_)
  split
  · next hx =>
    exact .single (.reopen s ∅ g _ .opened (.inr hx) (.inl rfl)
      (by exact ⟨rfl, rfl, rfl, rfl, rfl, rfl, rfl, rfl, id, id⟩)) ⟨rfl, rfl, rfl⟩
  · exact .refl

theorem openOrArmed_iff (st : GroupState) : st.openOrArmed = true ↔ st = .opened ∨ st = .armed := by
  cases st <;> simp [GroupState.openOrArmed]

theorem moves_effectGroupCommitNow (ps : List Byte) (h : checkGroupCommitNow ps s = none) :
    Moves s ∅ (effectGroupCommitNow ps s) ∅ := by
  refine s.moves_onGroup h (fun g hg => ?_)
  have hempty : (∅ : Set GroupNum) \ {g} = ∅ := by simp
  split at hg
  · cases hg
  · next hm =>
    split at hg
    · next hx =>
      have hx := (openOrArmed_iff _).mp hx
      have hactive : s.mode = .active := by simpa using hm
      have hmove := Move.sealAndQueue s ∅ g ((s.group g).commitNow s.time) (by tauto) (by simp [hactive])
        ⟨rfl, rfl, rfl, rfl, rfl, rfl, rfl, rfl, id, id⟩
      rw [hempty] at hmove
      exact .single hmove ⟨rfl, rfl, rfl⟩
    · cases hg

theorem moves_effectGroupDiscard (ps : List Byte) (h : checkGroupDiscard ps s = none) :
    Moves s ∅ (effectGroupDiscard ps s) ∅ :=
  s.moves_onGroup h (fun g _ => moves_releaseFillings ∅ g _ s)

/-- A write held for the group passes before or after the group goes out of service alike. -/
theorem passHeld_setGroup (g : GroupNum) (y : Group) : (s.setGroup g y).passHeld = s.passHeld.setGroup g y := by
  unfold passHeld
  rw [setGroup_port]
  cases s.port <;> rfl

theorem passHeld_group (g : GroupNum) : s.passHeld.group g = s.group g := by
  unfold passHeld
  split <;> rfl

theorem passHeld_heldFor (g : GroupNum) : s.passHeld.port.heldFor g = false := by
  unfold passHeld
  split
  · rfl
  · next h => rw [h]; rfl
  · next h => rw [h]; rfl

theorem moves_effectGroupOff (ps : List Byte) (h : checkGroupOff ps s = none) : Moves s ∅ (effectGroupOff ps s) ∅ := by
  refine s.moves_onGroup h (fun g hg => ?_)
  dsimp only at hg
  split at hg
  · next hx =>
    simp only [Bool.and_eq_true, List.isEmpty_iff, openOrArmed_iff] at hx
    obtain ⟨⟨hx, hf⟩, ho⟩ := hx
    unfold turnOff
    dsimp only
    rw [modifyGroup_eq]
    split
    · rw [passHeld_setGroup]
      have hg := s.passHeld_group g
      refine (s.moves_passHeld ∅).trans (.single (.turnOff s.passHeld ∅ g _ (hg ▸ hx) (hg ▸ hf) (hg ▸ ho)
        (s.passHeld_heldFor g) ?_) ⟨rfl, rfl, rfl⟩)
      rw [hg]
      exact ⟨rfl, rfl, rfl, rfl, rfl, rfl, rfl, rfl, id, id⟩
    · next hheld =>
      exact .single (.turnOff s ∅ g _ hx hf ho (by simpa using hheld)
        (by exact ⟨rfl, rfl, rfl, rfl, rfl, rfl, rfl, rfl, id, id⟩)) ⟨rfl, rfl, rfl⟩
  · cases hg

theorem moves_onStalled {ps : List Byte} (h : checkStalled ps s = none) {f : GroupNum → State}
    (hf : ∀ g, (s.group g).state = .stalled → Moves s ∅ (f g) ∅) : Moves s ∅ (onGroup ps s f) ∅ := by
  refine s.moves_onGroup h (fun g hg => hf g ?_)
  by_contra hx
  rw [if_neg hx] at hg
  cases hg

theorem within_enable (r : RecordUnit) (w : Option (WriterTask × Status)) : r.Within { r with writer := w } :=
  .of_fields rfl rfl rfl rfl rfl le_rfl id

theorem moves_enableRing (p : RingParams) (hbad : p.badValues = false) (hconflict : s.ringConflict p = false)
    (hhead : p.headAddr < 2 ^ 32) (htail : p.tailAddr < 2 ^ 32) : Moves s ∅ (s.enableRing p) ∅ := by
  unfold enableRing
  dsimp only
  split
  · exact .single (.enableRing s ∅ p _ hbad hconflict hhead htail (within_enable _ _)) ⟨rfl, rfl, rfl⟩
  · exact Moves.trans (.single (.enableRing s ∅ p _ hbad hconflict hhead htail (.refl _)) ⟨rfl, rfl, rfl⟩)
      (moves_writerRequest _ ∅ _ _)

theorem moves_disableRing : Moves s ∅ s.disableRing ∅ := by
  have hwriter : ∀ w, s.records.Within { s.records.disable with writer := w } :=
    fun w => s.records.within_disable.trans (within_enable _ w)
  unfold disableRing
  dsimp only
  split
  · exact s.moves_setRecords ∅ s.records.within_disable
  · exact (s.moves_setRecords ∅ (hwriter none)).trans (moves_places _ ∅ s.arbiter.drainPlace none)
  · exact s.moves_setRecords ∅ (hwriter _)

theorem moves_effectRingSet (ps : List Byte) (h : checkRingSet ps s = none) : Moves s ∅ (effectRingSet ps s) ∅ := by
  unfold effectRingSet
  dsimp only
  split
  · next he =>
    simp only [checkRingSet, he] at h
    split at h
    · cases h
    · split at h
      · cases h
      · next hbad =>
        split at h
        · cases h
        · next hconflict =>
          exact s.moves_enableRing _ (by simpa using hbad) (by simpa using hconflict) (field_four_lt _ _)
            (field_four_lt _ _)
  · exact s.moves_disableRing

end State

/-! ## Frames -/

/-- A command whose effect, where its checks accept, is a run of moves. -/
def Command.Moving (c : Command) : Prop :=
  ∀ (ps : List Byte) (s : State), c.check ps s = none → Moves (s.setResult .ok) ∅ (c.effect ps (s.setResult .ok)) ∅

/-- Every command of the link is one. -/
theorem moving_of_linkCommand {i : Instr} {c : Command} {ev : FrameEvent} (h : linkCommandOf i = some (c, ev)) : c.Moving := by
  intro ps s hcheck
  cases i <;> cases h
  case modeSet => exact State.moves_effectModeSet _ ps
  case softReset => exact State.moves_effectSoftReset _ ps
  case tickSet => exact State.moves_effectTickSet _ ps
  case timeSet => exact State.moves_moveTime _ _
  case cycleSet => exact State.moves_effectCycleSet (s.setResult .ok) ps hcheck
  case windowSet => exact State.moves_effectWindowSet (s.setResult .ok) ps hcheck
  case groupSet => exact State.moves_effectGroupSet (s.setResult .ok) ps hcheck
  case groupArm => exact State.moves_effectGroupArm (s.setResult .ok) ps hcheck
  case groupDisarm => exact State.moves_effectGroupDisarm (s.setResult .ok) ps hcheck
  case groupCommitNow => exact State.moves_effectGroupCommitNow (s.setResult .ok) ps hcheck
  case groupDiscard => exact State.moves_effectGroupDiscard (s.setResult .ok) ps hcheck
  case groupOff => exact State.moves_effectGroupOff (s.setResult .ok) ps hcheck
  case groupRetry => exact State.moves_onStalled (s.setResult .ok) hcheck (fun g => State.moves_requeue _ g)
  case groupAbandon => exact State.moves_onStalled (s.setResult .ok) hcheck (fun g => State.moves_abandonGroup _ g)
  case ringSet => exact State.moves_effectRingSet (s.setResult .ok) ps hcheck
  case statusClear => exact State.moves_setLink (s.setResult .ok) ∅ _ ⟨rfl, rfl, rfl⟩
  all_goals exact .refl

theorem moving_unknownCommandOf (code : Byte) : (unknownCommandOf code).Moving := fun _ _ h => nomatch h

namespace State

variable (s : State)

theorem linkMoves_selectFall : LinkMoves s s.selectFall := by
  unfold selectFall
  split
  · exact .refl
  · exact linkMoves_setLink s _

theorem linkMoves_clockBits (bits : List Bool) : LinkMoves s (s.clockBits bits) := by
  unfold clockBits
  split
  · exact linkMoves_setLink s _
  · exact .refl

theorem linkMoves_clockBytes (bytes : List Byte) : LinkMoves s (s.clockBytes bytes) := by
  unfold clockBytes
  split
  · exact linkMoves_setLink s _
  · exact .refl

theorem linkMoves_selectRise : LinkMoves s s.selectRise := linkMoves_setLink s _

theorem moves_setResult (r : Result) : Moves s ∅ (s.setResult r) ∅ := s.moves_setLink ∅ _ ⟨rfl, rfl, rfl⟩

theorem moves_refuseFrame (r : Result) : Moves s ∅ (s.refuseFrame r) ∅ := by
  unfold refuseFrame
  split
  · exact (s.moves_raise ∅ _).trans (moves_setResult _ _)
  · exact s.moves_setResult _

theorem moves_run {c : Command} (hc : c.Moving) (ps : List Byte) : Moves s ∅ (c.run ps s) ∅ := by
  unfold Command.run
  split
  · exact s.moves_setResult _
  · next h => exact (s.moves_setResult _).trans (hc ps s h)

theorem linkMoves_rise {c : Command} (hc : c.Moving) : LinkMoves s (c.rise s) := by
  unfold Command.rise
  dsimp only
  split
  · exact .refl
  · split
    · exact s.linkMoves_selectRise
    · split
      · exact s.linkMoves_selectRise.trans (moves_refuseFrame _ _).link
      · exact s.linkMoves_selectRise.trans (moves_run _ hc _).link

theorem linkMoves_frame {c : Command} (hc : c.Moving) (ev : FrameEvent) : LinkMoves s (c.on ev s) := by
  cases ev with
  | whole ps =>
    unfold Command.on Command.whole
    dsimp only
    split
    · exact .refl
    · exact (s.linkMoves_selectFall.trans (linkMoves_clockBytes _ _)).trans (linkMoves_rise _ hc)
  | fall => exact s.linkMoves_selectFall
  | clock bits => exact s.linkMoves_clockBits bits
  | rise => exact s.linkMoves_rise hc

theorem linkMoves_badFrame (bits : List Bool) : LinkMoves s (badFrame bits s) := by
  unfold badFrame
  split
  · exact .refl
  · refine (s.linkMoves_selectFall.trans (linkMoves_clockBits _ bits)).trans ?_
    unfold riseBad
    split
    · exact linkMoves_selectRise _
    · split
      · exact (linkMoves_selectRise _).trans (moves_refuseFrame _ _).link
      · exact linkMoves_selectRise _

/-! ## The initiator port -/

theorem moves_passWith (t : Transaction) (d : Disposition) (w : Option WindowNum) (h : s.port.isPassing = false) :
    Moves s ∅ (s.passWith t d w) ∅ := .single (.pass s ∅ _ _ h) ⟨rfl, rfl, rfl⟩

theorem mergeInto_addrs (l : List Entry) (t : Transaction) : (mergeInto l t).map (·.addr) = l.map (·.addr) := by
  unfold mergeInto
  rw [List.map_map]
  refine List.map_congr_left (fun e _ => ?_)
  simp only [Function.comp]
  split <;> rfl

theorem alike_placed (x : Group) (l : List Entry) : { x with filling := l }.Alike (placed x l) := by
  refine ⟨rfl, rfl, rfl, rfl, rfl, rfl, rfl, rfl, id, fun h => ?_⟩
  unfold placed
  dsimp only
  split
  · exact RecordUnit.satAdd_le _ _
  · exact h

theorem within_placement (g : GroupNum) (t : Transaction) : s.records.Within (s.recordsAfterPlacement g t) := by
  unfold recordsAfterPlacement
  split
  · exact s.records.within_handOver _
  · exact .refl _

/-- A write presented for placement at an address staged for its group (R105 to R107). -/
theorem moves_present (t : Transaction) (i : WindowNum) (hport : s.port = .free) (hmode : s.mode = .active)
    (hon : (s.group (s.windows.get i).group).state ≠ .off)
    (hstaged : s.stagedFor (s.windows.get i).group t.addr = true) : Moves s ∅ (s.present t i) ∅ := by
  have hpass : s.port.isPassing = false := by rw [hport]; rfl
  unfold present
  dsimp only
  generalize (s.windows.get i).group = g at hon hstaged ⊢
  split
  · rw [placeMerge_eq]
    exact (Moves.trans (.single (.merge s ∅ g _ _ hmode hon (mergeInto_addrs _ t) (alike_placed _ _)) ⟨rfl, rfl, rfl⟩)
      (moves_setRecords (s.setGroup g _) ∅ (s.within_placement g t))).trans (moves_answer _ ∅ _ hpass)
  · next hmiss =>
    have hnew : findEntry (s.group g).filling t.addr = none := by simpa using hmiss
    split
    · next hroom =>
      rw [placeNew_eq]
      exact (Moves.trans (.single (.place s ∅ g _ { addr := t.addr, data := t.data, lanes := t.lanes } hport hmode hon hroom
        hnew hstaged (alike_placed _ _)) ⟨rfl, rfl, rfl⟩) (moves_setRecords (s.setGroup g _) ∅ (s.within_placement g t))).trans
        (moves_answer _ ∅ _ hpass)
    · next hroom =>
      split
      · exact .single (.holdForRoom s ∅ _ g 0 hpass hon hmode (by simpa using hroom) hstaged hnew) ⟨rfl, rfl, rfl⟩
      · exact s.moves_refuseWrite ∅ g _ t hpass

theorem moves_openWatch (t : Transaction) (i : WindowNum) : Moves s ∅ (s.openWatch t i) ∅ := by
  refine .single (.watch s ∅ _ (fun _ => ?_)) ⟨rfl, rfl, rfl⟩
  simp only [Option.all_some, decide_eq_true_eq]
  split <;> decide

theorem moves_disposeIn (t : Transaction) (i : WindowNum) (hport : s.port = .free) (hmatch : s.matchWindow t.addr = some i) :
    Moves s ∅ (s.disposeIn t i) ∅ := by
  have hpass : s.port.isPassing = false := by rw [hport]; rfl
  unfold disposeIn
  dsimp only
  split
  · split
    · exact (s.moves_openWatch t i).trans (moves_passWith _ t _ _ hpass)
    · exact s.moves_passWith t _ _ hpass
  · next hkind =>
    split
    · exact s.moves_passWith t _ _ hpass
    · next hon =>
      split
      · unfold readStaged
        dsimp only
        split
        · exact s.moves_passWith t _ _ hpass
        · split
          · exact s.moves_answer ∅ _ hpass
          · exact s.moves_passWith t _ _ hpass
      · unfold writeStaged
        split
        · exact s.moves_answer ∅ _ hpass
        · split
          · next hmode => exact s.moves_present t i hport hmode hon (stagedFor_of_matchWindow hmatch hkind)
          · next hmode => exact .single (.holdForMode s ∅ _ _ 0 hpass hon hmode) ⟨rfl, rfl, rfl⟩
          · exact .refl
          · exact .refl

theorem moves_tailSnoop (t : Transaction) : Moves s ∅ (s.tailSnoop t) ∅ ∧ (s.tailSnoop t).port = s.port := by
  unfold tailSnoop
  dsimp only
  split
  · exact ⟨s.moves_setRecords ∅ (.of_fields rfl rfl rfl rfl rfl le_rfl id), rfl⟩
  · exact ⟨s.moves_raise ∅ _, rfl⟩

theorem moves_classify (t : Transaction) (hport : s.port = .free) : Moves s ∅ (s.classify t) ∅ := by
  have hpass : s.port.isPassing = false := by rw [hport]; rfl
  unfold classify
  split
  · obtain ⟨hsnoop, hp⟩ := s.moves_tailSnoop t
    exact hsnoop.trans (moves_passWith _ t _ _ (by rw [hp]; exact hpass))
  · split
    · exact s.moves_passWith t _ _ hpass
    · split
      · exact s.moves_passWith t _ _ hpass
      · next hmatch => exact s.moves_disposeIn t _ hport hmatch

theorem moves_takeUpstream (t : Transaction) : Moves s ∅ (s.takeUpstream t) ∅ := by
  unfold takeUpstream
  split
  · next h =>
    have hport : s.port = .free := by
      simp only [canTakeUpstream, Bool.and_eq_true, beq_iff_eq] at h
      exact h.1
    exact (s.moves_reply ∅ none).trans (moves_classify _ _ hport)
  · exact .refl

theorem moves_closeWatch (ok : Bool) (data : Word) : Moves s ∅ (s.closeWatch ok data) ∅ := by
  unfold closeWatch
  split
  · exact .refl
  · exact (s.moves_handOver ∅ _).trans (.single (.watch _ ∅ none (by simp)) ⟨rfl, rfl, rfl⟩)

theorem moves_initiatorResponse (ok : Bool) (data : Word) : Moves s ∅ (s.initiatorResponse ok data) ∅ := by
  unfold initiatorResponse
  split
  · next t howner _ =>
    have hanswered : Moves s ∅ (s.endTransaction.answer (s.replyTo t ok data)) ∅ :=
      Moves.trans (.single (.answered s ∅ howner) ⟨rfl, rfl, rfl⟩) (moves_reply _ ∅ (some (s.replyTo t ok data)))
    unfold initiatorAnswered
    dsimp only
    split
    · exact hanswered.trans (moves_closeWatch _ ok data)
    · exact hanswered
  · exact .refl

/-! ## The timebase -/

theorem moves_tickPort : Moves s ∅ s.tickPort ∅ := by
  have hcount : Moves s ∅ (s.setPort s.port.countHold) ∅ := by
    cases hp : s.port with
    | held t g r n => exact .single (.countHold s ∅ t g r n (n + 1) hp) ⟨rfl, rfl, rfl⟩
    | free => rw [show Port.free.countHold = s.port from hp.symm]; exact .refl
    | passing t => rw [show (Port.passing t).countHold = s.port from hp.symm]; exact .refl
  exact hcount.trans (moves_setDue _ ∅ _)

theorem moves_tick : Moves s ∅ s.tick ∅ := by
  have htime : Moves s ∅ (s.setTimebase s.timebase.tick) ∅ := by
    refine .single (.timebase s ∅ _ ?_) ⟨rfl, rfl, rfl⟩
    rintro ⟨hcount, hcycle⟩
    refine ⟨by simp only [setTimebase_timebase, Timebase.tick]; omega, ?_⟩
    simp only [setTimebase_timebase, Timebase.tick]
    split <;> omega
  exact ((htime.trans (moves_tickPort _)).trans (moves_markedPoints _ ∅ _ _)).trans (moves_takeUpHold _ ∅)

theorem moves_tickUnlessFrozen : Moves s ∅ s.tickUnlessFrozen ∅ := by
  unfold tickUnlessFrozen
  split
  · exact .refl
  · exact s.moves_tick

theorem moves_clkPeriod : Moves s ∅ s.clkPeriod ∅ := by
  unfold clkPeriod
  split
  · exact .refl
  · split
    · next h => exact .single (.timebase s ∅ _ (fun hlaw => ⟨h, hlaw.2⟩)) ⟨rfl, rfl, rfl⟩
    · exact s.moves_tick

theorem moves_setSync (e : Edge) : Moves s ∅ (s.setSync e) ∅ := .single (.timebase s ∅ _ id) ⟨rfl, rfl, rfl⟩

theorem moves_setFreeze (b : Bool) : Moves s ∅ (s.setFreeze b) ∅ := .single (.timebase s ∅ _ id) ⟨rfl, rfl, rfl⟩

theorem moves_restartCycle : Moves s ∅ s.restartCycle ∅ := by
  unfold restartCycle
  dsimp only
  refine Moves.trans ?_ (moves_markedPoints _ ∅ _ _)
  refine .single (.timebase s ∅ _ ?_) ⟨rfl, rfl, rfl⟩
  rintro ⟨hcount, hcycle⟩
  exact ⟨hcount, by simp only [setTimebase_timebase]; omega⟩

theorem moves_syncEdge (e : Edge) : Moves s ∅ (s.syncEdge e) ∅ := by
  unfold syncEdge
  dsimp only
  split
  · exact s.moves_setSync e
  · exact (s.moves_setSync e).trans (moves_restartCycle _)

end State

/-! ## The rows -/

theorem moves_happening {s t : State} {f : State → State} (hf : ∀ a, Moves a ∅ (f a) ∅) (h : happening s f = .next t) :
    Moves s ∅ t ∅ := by
  unfold happening at h
  split at h <;> cases h
  · exact (hf s).trans (State.moves_settle _ s)
  · exact .refl

theorem linkMoves_selectLine (s : State) (ev : FrameEvent) : LinkMoves s (s.selectLine ev) := by
  cases ev with
  | whole _ => exact .refl
  | clock _ => exact .refl
  | fall => exact linkMoves_setLink s _
  | rise => exact linkMoves_setLink s _

theorem linkMoves_frameHappening {s t : State} {c : Command} (hc : c.Moving) {ev : FrameEvent}
    (h : frameHappening s c ev = .next t) : LinkMoves s t := by
  unfold frameHappening at h
  split at h <;> cases h
  · exact (s.linkMoves_frame hc ev).trans (State.moves_settle _ s).link
  · exact linkMoves_selectLine s ev

theorem moves_of_happeningOf {i : Instr} {f : State → State} (h : happeningOf i = some f) (a : State) :
    Moves a ∅ (f a) ∅ := by
  cases i <;> cases h
  case upstreamTransactionTake t => exact a.moves_takeUpstream t
  case tick => exact a.moves_tickUnlessFrozen
  case sealPointReached g =>
    dsimp only
    split
    · next hm => exact a.moves_takeUpSeal ∅ g hm
    · exact .refl
  case commitInstantReached g =>
    dsimp only
    split
    · next hm => exact a.moves_takeUpCommit ∅ g hm
    · exact .refl
  case holdExpiry => exact a.moves_takeUpHold ∅
  case grant =>
    dsimp only
    split
    · unfold State.grantHighest
      split
      · exact .refl
      · exact a.moves_grantTo ∅ _
    · exact .refl
  case drainTake => exact a.moves_takeNext
  case recordBegin => exact a.moves_settleWriter ∅
  case heldWritePlacement => exact a.moves_reconsiderHeld ∅
  case flushComplete => exact a.moves_settleFlush
  case softResetCompletion => exact a.moves_settleSoftReset
  case drainStepResponse ok => exact a.moves_drainResponse ok
  case recordWordResponse ok => exact a.moves_recordResponse ∅ ok
  case headWordResponse ok => exact a.moves_headWordAnswered ∅ ok
  case initiatorResponse ok data => exact a.moves_initiatorResponse ok data

/-- Every row is a run of moves. -/
theorem linkMoves_exec {i : Instr} {s t : State} (h : exec i s = .next t) : LinkMoves s t := by
  obtain ⟨c, ev, hc⟩ | ⟨f, hf⟩ | ⟨code, ev, rfl⟩ | ⟨bits, rfl⟩ | ⟨e, rfl⟩ | rfl | rfl | rfl | rfl | ⟨runs, rfl⟩ := row_cases i
  · exact linkMoves_frameHappening (moving_of_linkCommand hc) (exec_of_linkCommand hc s ▸ h)
  · exact (moves_happening (moves_of_happeningOf hf) (exec_of_happening hf s ▸ h)).link
  · simp only [exec, execUnknownCommand] at h
    split at h
    · cases h; exact .refl
    · exact linkMoves_frameHappening (moving_unknownCommandOf code) h
  · simp only [exec, execFrameError] at h
    split at h
    · cases h; exact .refl
    · split at h <;> cases h
      · exact (s.linkMoves_badFrame bits).trans (State.moves_settle _ s).link
      · exact .refl
  · simp only [exec, execSyncEdge] at h
    split at h <;> cases h
    · exact ((s.moves_syncEdge e).trans (State.moves_settle _ s)).link
    · exact (s.moves_setSync e).link
  · simp only [exec, execFreezeBegin] at h
    split at h <;> cases h
    · exact ((s.moves_setFreeze true).trans (State.moves_settle _ s)).link
    · exact (s.moves_setFreeze true).link
  · simp only [exec, execFreezeEnd] at h
    split at h <;> cases h
    · exact ((s.moves_setFreeze false).trans (State.moves_settle _ s)).link
    · exact (s.moves_setFreeze false).link
  · simp only [exec, execHardwareReset, State.resetFall] at h
    split at h <;> cases h
    · exact .single (.blocksReset s _ _)
    · exact .refl
    · exact .refl
  · simp only [exec, execResetRise] at h
    cases h
    exact .single (.outside s ∅ .running s.reply s.link s.irq s.due s.choices s.pending)
  · simp only [exec, execPowerOn, State.powerUp] at h
    cases h
    exact .single (.blocksReset s _ _)

/-- Every step is a run of moves. -/
theorem linkMoves_step {s t : State} (h : step s = .next t) : LinkMoves s t := by
  unfold step at h
  split at h
  · exact (moves_happening (fun a => a.moves_clkPeriod) h).link
  · next c rest _ =>
    exact (LinkMoves.single (.outside s ∅ s.run s.reply s.link s.irq s.due s.choices rest)).trans (linkMoves_exec h)

/-- What every move keeps, every step keeps; `P` may speak of the groups that await their state after a completed epoch. -/
theorem step_keeps (P : State → Set GroupNum → Prop) (hmove : ∀ s t D E, Move (s, D) (t, E) → P s D → P t E) {s t : State}
    (hs : P s ∅) (h : step s = .next t) : P t ∅ := by
  have hrun : ∀ p : State × Set GroupNum, Relation.ReflTransGen Move (s, ∅) p → P p.1 p.2 := by
    intro p hp
    induction hp with
    | refl => exact hs
    | tail _ hm ih => exact hmove _ _ _ _ hm ih
  exact hrun (t, ∅) (linkMoves_step h)

end Sys2Proof.Machine
end

section
/-! PROOF. What every step keeps of the ranges of TABLE 0(d), of the commit queue and of the initiator path's place (O11, O6). -/

namespace Sys2Proof.Machine
namespace State
variable (s : State)

/-- The held write reconsidered, its record aside: it stays, or it is placed in ACTIVE where there is room (R20). -/
theorem reconsiderUnreported_cases :
    (s.canPlaceHeld = false ∧ s.reconsiderUnreported = s) ∨
      (∃ tk g k, s.port = .held tk g .room k ∧ s.mode = .active ∧ s.hasRoom g = true ∧
        s.reconsiderUnreported =
          { s with
            groups := s.groups.set g (placed (s.group g) (allocateIn (s.group g).filling tk.tx)), port := .free
            reply := some .okWrite }) := by
  obtain ⟨hcannot, heq⟩ | ⟨tk, g, k, hport, hmode, hquota, hfree, heq⟩ := s.reconsiderHeld_cases
  · exact .inl ⟨hcannot, by rw [reconsiderUnreported, heq]; rfl⟩
  · refine .inr ⟨tk, g, k, hport, hmode, by simp [hasRoom, hquota, hfree], ?_⟩
    rw [reconsiderUnreported, heq, placeNew_eq]
    rfl

/-! ## The ranges (O11) -/

/-- The two saturating counts of a group are in range (R35, R37). -/
abbrev CountsInRange (x : Group) : Prop := x.overrunCount ≤ Config.countMax ∧ x.lateCount ≤ Config.countMax

variable {s}

theorem countsInRange_alike {x y : Group} (hx : CountsInRange x) (h : x.Alike y) : CountsInRange y :=
  ⟨h.overruns hx.1, h.lates hx.2⟩

theorem countsInRange_placed {x : Group} (hx : CountsInRange x) (l : List Entry) : CountsInRange (placed x l) :=
  countsInRange_alike (x := { x with filling := l }) hx (alike_placed x l)

theorem countsInRange_set {g : GroupNum} {y : Group} (hs : ∀ h, CountsInRange (s.group h)) (hy : CountsInRange y) :
    ∀ h, CountsInRange ((s.groups.set g y).get h) := by
  intro h
  rw [Table8.get_set]
  split
  · exact hy
  · exact hs h

theorem countsInRange_fill (h : GroupNum) : CountsInRange ((Table8.fill Group.initial).get h) := by
  rw [Table8.get_fill]
  decide

theorem countsInRange_disarm (hs : ∀ h, CountsInRange (s.group h)) : ∀ h, CountsInRange (s.disarmAll.group h) := by
  intro h
  rw [disarmAll, group_def, Table8.get_map]
  split
  · exact hs h
  · exact hs h

/-- A held write passes, or nothing changes (R22, R112). -/
theorem passHeld_cases :
    ((∀ g, s.port.heldFor g = false) ∧ s.passHeld = s) ∨
      ∃ t q, s.port.isPassing = false ∧
        s.passHeld = { s with port := .passing t, arbiter := { s.arbiter with initiatorPlace := some q } } := by
  cases hp : s.port with
  | free => exact .inl ⟨fun _ => rfl, s.passHeld_of_not_held (by simp [hp])⟩
  | passing t => exact .inl ⟨fun _ => rfl, s.passHeld_of_not_held (by simp [hp])⟩
  | held tk g r k => exact .inr ⟨_, _, rfl, s.passHeld_eq tk g r k hp⟩

variable (s) in
/-- The soft reset leaves every block at its initial values but for the kept transaction and its request (R174). -/
theorem completeSoftReset_cases :
    ∃ q, (s.port.isPassing = false → q = none) ∧ s.completeSoftReset =
      { s with
        mode := .bypass, windows := .fill Window.initial, port := s.port.afterSoftReset
        groups := .fill Group.initial, commitQueue := [], engine := none
        arbiter := { Arbiter.initial with initiatorPlace := q }, watch := none
        records := RecordUnit.initial, link := s.link.softReset, due := Due.none } := by
  unfold completeSoftReset requestKept
  cases s.port with
  | free => exact ⟨none, fun _ => rfl, rfl⟩
  | held => exact ⟨none, fun _ => rfl, rfl⟩
  | passing t => exact ⟨some _, fun h => Bool.noConfusion h, rfl⟩

/-- What O11 keeps. -/
def InRange (s : State) (_ : Set GroupNum) : Prop := RecordQueueLaw s ∧ TimebaseLaw s ∧ CountLaw s

theorem inRange_reconsider {D : Set GroupNum} (hs : InRange s D) : InRange s.reconsiderUnreported D := by
  obtain ⟨-, heq⟩ | ⟨tk, g, k, -, -, -, heq⟩ := s.reconsiderUnreported_cases <;> rw [heq]
  · exact hs
  · obtain ⟨hqueue, htime, hcounts, hlost, hwatch⟩ := hs
    exact ⟨hqueue, htime, countsInRange_set hcounts (countsInRange_placed (hcounts g) _), hlost, hwatch⟩

theorem move_keeps_inRange (s t : State) (D E : Set GroupNum) (h : Move (s, D) (t, E)) (hs : InRange s D) : InRange t E := by
  obtain ⟨hqueue, htime, hcounts, hlost, hwatch⟩ := hs
  cases h with
  | outside | arbiter | grantInitiator | pass | answered | freed | holdForRoom | holdForMode | countHold | withdrawInitiator
  | resetting | activate | beginFlush | window | nextStep | stepStatus => exact ⟨hqueue, htime, hcounts, hlost, hwatch⟩
  | timebase _ _ tb h => exact ⟨hqueue, h htime, hcounts, hlost, hwatch⟩
  | records _ _ r h => exact ⟨h.queue hqueue, htime, hcounts, h.lost hlost, hwatch⟩
  | enableRing _ _ p r hbad hconflict hhead htail hr =>
    exact ⟨hr.queue hqueue, htime, hcounts, hr.lost hlost, hwatch⟩
  | watch _ _ w h => exact ⟨hqueue, htime, hcounts, hlost, h hwatch⟩
  | bypassAtOnce => exact ⟨hqueue, htime, countsInRange_disarm hcounts, hlost, hwatch⟩
  | completeFlush =>
    obtain ⟨-, heq⟩ | ⟨_, _, -, heq⟩ := (s.setMode .bypass).passHeld_cases <;> rw [completeFlush, heq]
    · exact ⟨hqueue, htime, hcounts, hlost, hwatch⟩
    · exact ⟨hqueue, htime, hcounts, hlost, hwatch⟩
  | completeSoftReset =>
    obtain ⟨q, -, heq⟩ := s.completeSoftReset_cases
    rw [heq]
    exact ⟨Nat.zero_le _, htime, countsInRange_fill, Nat.zero_le _, rfl⟩
  | blocksReset => exact ⟨Nat.zero_le _, ⟨Nat.one_pos, Nat.succ_pos _⟩, countsInRange_fill, Nat.zero_le _, rfl⟩
  | tune _ _ g y h | reopen _ _ g y _ _ _ h | sealAtPoint _ _ g y _ _ h | commit _ _ g y _ _ h | sealAndQueue _ _ g y _ _ h
  | returns _ _ g y _ _ _ h | takeStep _ _ g _ y _ _ _ _ _ _ h | takeDone _ _ g _ y _ _ _ h | finish _ _ c y _ _ h
  | stall _ _ c y _ h | requeue _ g y _ h | pendAbandon _ g y _ _ h | closeAbandon _ g y _ _ h
  | turnOff _ _ g y _ _ _ _ h | place _ _ g y _ _ _ _ _ _ _ h | merge _ _ g y _ _ _ _ h =>
    exact ⟨hqueue, htime, countsInRange_set hcounts (countsInRange_alike (by exact hcounts _) h), hlost, hwatch⟩
  | reconsider => exact inRange_reconsider ⟨hqueue, htime, hcounts, hlost, hwatch⟩
  | release _ _ g y h =>
    have hy : CountsInRange y :=
      h.elim (countsInRange_alike (by exact hcounts g)) (countsInRange_alike (by exact hcounts g))
    exact inRange_reconsider (D := D) ⟨hqueue, htime, countsInRange_set hcounts hy, hlost, hwatch⟩
  | configure _ _ g y _ _ _ _ _ _ _ _ h =>
    exact inRange_reconsider (D := D)
      ⟨hqueue, htime, countsInRange_set hcounts (countsInRange_alike (by exact hcounts g) h), hlost, hwatch⟩

/-! ## The initiator path's place (O6) -/

/-- What O6 keeps of the initiator path. -/
def PlaceKept (s : State) (_ : Set GroupNum) : Prop := PlaceLaw s

theorem placeKept_reconsider {D : Set GroupNum} (hs : PlaceKept s D) : PlaceKept s.reconsiderUnreported D := by
  obtain ⟨-, heq⟩ | ⟨tk, g, k, hport, -, -, heq⟩ := s.reconsiderUnreported_cases <;> rw [heq]
  · exact hs
  · exact ⟨fun h => absurd (hs.1 h) (by rw [hport]; exact Bool.noConfusion), hs.2⟩

/-- The port changes while it is not PASSING. -/
theorem placeKept_setPort {D : Set GroupNum} (hs : PlaceKept s D) (h : s.port.isPassing = false) (p : Port) :
    PlaceKept (s.setPort p) D :=
  ⟨fun hp => absurd (hs.1 hp) (by rw [h]; exact Bool.noConfusion), hs.2⟩

/-- A transaction passes from a port that was not PASSING. -/
theorem placeKept_pass {D : Set GroupNum} (hs : PlaceKept s D) (h : s.port.isPassing = false) (t : Taken) (q : Request) :
    PlaceKept { s with port := .passing t, arbiter := { s.arbiter with initiatorPlace := some q } } D :=
  ⟨fun _ => rfl, fun ho => absurd (hs.1 (.inr ho)) (by rw [h]; exact Bool.noConfusion)⟩

theorem isPassing_holdForMode (p : Port) : p.holdForMode.isPassing = p.isPassing := by
  cases p <;> rfl

theorem move_keeps_place (s t : State) (D E : Set GroupNum) (h : Move (s, D) (t, E)) (hs : PlaceKept s D) : PlaceKept t E := by
  cases h with
  | outside | timebase | records | enableRing | watch | resetting | activate | bypassAtOnce | window | stepStatus | nextStep
  | tune | reopen | sealAtPoint | commit | sealAndQueue | returns | takeStep | takeDone | finish | stall | requeue | pendAbandon
  | closeAbandon | turnOff | place | merge => exact hs
  | arbiter _ _ a hplace howner =>
    exact ⟨fun h => hs.1 (h.imp (hplace ▸ ·) howner), fun h => hplace ▸ hs.2 (howner h)⟩
  | grantInitiator _ _ a hplace hnone => exact ⟨fun _ => hs.1 (.inl hplace), fun _ => hnone⟩
  | pass _ _ t q h => exact placeKept_pass hs h t q
  | answered _ _ h => exact ⟨fun hp => absurd (hs.2 h) (hp.resolve_right (fun ho => by cases ho)), fun ho => by cases ho⟩
  | freed _ _ h | holdForRoom _ _ _ _ _ h | holdForMode _ _ _ _ _ h => exact placeKept_setPort hs h _
  | countHold _ _ t g r n m h => exact placeKept_setPort hs (by rw [h]; rfl) _
  | withdrawInitiator _ _ t t' h => exact ⟨fun _ => rfl, fun _ => rfl⟩
  | beginFlush => exact ⟨fun h => (isPassing_holdForMode s.port).trans (hs.1 h), hs.2⟩
  | completeFlush =>
    obtain ⟨-, heq⟩ | ⟨t, q, h, heq⟩ := (s.setMode .bypass).passHeld_cases <;> rw [completeFlush, heq]
    · exact hs
    · exact placeKept_pass (s := s.setMode .bypass) hs h t q
  | completeSoftReset =>
    obtain ⟨q, hq, heq⟩ := s.completeSoftReset_cases
    rw [heq]
    refine ⟨fun h => ?_, fun h => by cases h⟩
    cases hp : s.port with
    | passing t => simp [Port.afterSoftReset, Port.isPassing]
    | free | held => exact absurd (hq (by rw [hp]; rfl)) (h.resolve_right (fun ho => by cases ho))
  | blocksReset => exact ⟨fun h => h.elim (absurd rfl) (fun ho => by cases ho), fun h => by cases h⟩
  | reconsider => exact placeKept_reconsider hs
  | release | configure => exact placeKept_reconsider (D := D) hs

/-! ## The commit queue (O6) -/

/-- A group in the queue law: whether it is in the queue, its state, whether the drain context is its own, and whether it awaits
its state after a completed epoch. -/
structure QueuePlace (inQueue : Prop) (st : GroupState) (owns awaits : Prop) : Prop where
  queued : inQueue ↔ st = .queued
  draining : st = .draining → owns ∨ awaits
  owned : owns → st = .draining
  awaited : awaits → (st = .draining ∨ st = .stalled) ∧ ¬ owns

/-- A group outside the busy states has no place in the queue law, and none in any other state outside them. -/
theorem QueuePlace.change {i o a : Prop} {st st' : GroupState} (h : QueuePlace i st o a) (hst : st.busy = false)
    (hst' : st'.busy = false) : QueuePlace i st' o a := by
  have hi : ¬ i := fun hi => by rw [h.queued.mp hi] at hst; cases hst
  have ho : ¬ o := fun ho => by rw [h.owned ho] at hst; cases hst
  have ha : ¬ a := fun ha => by rcases (h.awaited ha).1 with hx | hx <;> rw [hx] at hst <;> cases hst
  exact ⟨⟨fun hi' => absurd hi' hi, fun hq => by (rw [hq] at hst'; cases hst')⟩,
    fun hd => by (rw [hd] at hst'; cases hst'),
    fun ho' => absurd ho' ho, fun ha' => absurd ha' ha⟩

/-- A group that awaits its state gets one outside the queue. -/
theorem QueuePlace.returned {i o a : Prop} {st st' : GroupState} (h : QueuePlace i st o a) (ha : a) (hst' : st'.busy = false) :
    QueuePlace i st' o False := by
  obtain ⟨hstate, ho⟩ := h.awaited ha
  refine ⟨⟨fun hi => ?_, fun hq => by (rw [hq] at hst'; cases hst')⟩,
    fun hd => by (rw [hd] at hst'; cases hst'),
    fun ho' => absurd ho' ho, False.elim⟩
  rw [h.queued.mp hi] at hstate
  rcases hstate with hx | hx <;> cases hx

/-- What O6 keeps of the commit queue, with the groups that await their state (R62 step 6). -/
structure QueueKept (s : State) (D : Set GroupNum) : Prop where
  nodup : s.commitQueue.Nodup
  placed : ∀ g, QueuePlace (g ∈ s.commitQueue) (s.group g).state (s.engine.map (·.group) = some g) (g ∈ D)

theorem queueKept_empty_iff : QueueKept s ∅ ↔ QueueLaw s := by
  constructor
  · rintro ⟨hnodup, hplaced⟩
    exact ⟨hnodup, fun g => (hplaced g).queued, fun g => ⟨fun h => ((hplaced g).draining h).resolve_right id, (hplaced g).owned⟩⟩
  · rintro ⟨hnodup, hqueued, hdraining⟩
    exact ⟨hnodup, fun g => ⟨hqueued g, fun h => .inl ((hdraining g).mp h), (hdraining g).mpr, False.elim⟩⟩

/-- A change of one group, with its place in the queue, the engine and the groups that await. -/
theorem QueueKept.change {t : State} {D E : Set GroupNum} (hs : QueueKept s D) (g : GroupNum) (hnodup : t.commitQueue.Nodup)
    (hother : ∀ h, h ≠ g → (t.group h).state = (s.group h).state ∧ (h ∈ t.commitQueue ↔ h ∈ s.commitQueue) ∧
      (t.engine.map (·.group) = some h ↔ s.engine.map (·.group) = some h) ∧ (h ∈ E ↔ h ∈ D))
    (hg : QueuePlace (g ∈ t.commitQueue) (t.group g).state (t.engine.map (·.group) = some g) (g ∈ E)) : QueueKept t E := by
  refine ⟨hnodup, fun h => ?_⟩
  by_cases heq : h = g
  · exact heq ▸ hg
  · obtain ⟨hstate, hqueue, howns, hawaits⟩ := hother h heq
    rw [hstate, hqueue, howns, hawaits]
    exact hs.placed h

/-- A group keeps its state. -/
theorem state_set {g : GroupNum} {y : Group} (hy : y.state = (s.group g).state) (h : GroupNum) :
    ((s.groups.set g y).get h).state = (s.group h).state := by
  rw [Table8.get_set]
  split
  · next heq => rw [hy, heq]
  · rfl

/-- Nothing that the law sees changes. -/
theorem QueueKept.of_same {t : State} {D : Set GroupNum} (hs : QueueKept s D) (hqueue : t.commitQueue = s.commitQueue)
    (hstate : ∀ g, (t.group g).state = (s.group g).state) (hengine : t.engine.map (·.group) = s.engine.map (·.group)) :
    QueueKept t D :=
  ⟨hqueue ▸ hs.nodup, fun g => by rw [hqueue, hstate, hengine]; exact hs.placed g⟩

theorem state_set_ne {g h : GroupNum} (y : Group) (hne : h ≠ g) : ((s.groups.set g y).get h).state = (s.group h).state := by
  rw [Table8.get_set_ne _ _ hne]
  rfl

theorem engine_of_canTake (h : s.canTake = true) : s.engine = none := by
  by_contra hcon
  rw [s.canTake_eq_false_iff.mpr (.inl hcon)] at h
  cases h

/-- A group that is neither DRAINING nor STALLED awaits nothing. -/
theorem QueuePlace.not_awaited {i o a : Prop} {st : GroupState} (h : QueuePlace i st o a) (hd : st ≠ .draining)
    (hs : st ≠ .stalled) : ¬ a :=
  fun ha => (h.awaited ha).1.elim hd hs

theorem QueueKept.not_owner {D : Set GroupNum} (hs : QueueKept s D) {g : GroupNum} (hd : (s.group g).state ≠ .draining) :
    s.engine.map (·.group) ≠ some g :=
  fun ho => hd ((hs.placed g).owned ho)

/-- With an empty queue and an IDLE engine the law asks that no group be QUEUED, DRAINING or awaiting. -/
theorem queueKept_of_idle {t : State} (hqueue : t.commitQueue = []) (hengine : t.engine = none)
    (hstate : ∀ g, (t.group g).state.busy = false) : QueueKept t ∅ := by
  refine ⟨by simp [hqueue], fun g => ⟨⟨fun h => ?_, fun h => ?_⟩, fun h => ?_, fun h => ?_, False.elim⟩⟩
  · simp [hqueue] at h
  · simpa [h, GroupState.busy] using hstate g
  · simpa [h, GroupState.busy] using hstate g
  · simp [hengine] at h

/-- A group changes outside the queue, the engine and the groups that await. -/
theorem QueueKept.set {D : Set GroupNum} (hs : QueueKept s D) (g : GroupNum) (y : Group)
    (hg : QueuePlace (g ∈ s.commitQueue) y.state (s.engine.map (·.group) = some g) (g ∈ D)) : QueueKept (s.setGroup g y) D :=
  hs.change g hs.nodup (fun h hne => ⟨by rw [group_setGroup_ne _ _ hne], .rfl, .rfl, .rfl⟩) (by rw [group_setGroup_self]; exact hg)

/-- A group that was not in the queue enters it. -/
theorem QueueKept.enqueue {D : Set GroupNum} (hs : QueueKept s D) (g : GroupNum) (y : Group) (hy : y.state = .queued)
    (hx : (s.group g).state ≠ .queued) (hown : s.engine.map (·.group) ≠ some g) :
    QueueKept ((s.setGroup g y).enqueue g) (D \ {g}) := by
  have hnew : g ∉ s.commitQueue := fun h => hx ((hs.placed g).queued.mp h)
  refine hs.change g ?_ (fun h hne => ?_) ?_
  · exact List.nodup_append.mpr ⟨hs.nodup, List.nodup_singleton g, by rintro a ha b hb rfl; exact hnew (by simp_all)⟩
  · refine ⟨by rw [enqueue_group, group_setGroup_ne _ _ hne], ?_, .rfl, ?_⟩
    · simp [State.enqueue, hne]
    · simp [hne]
  · rw [enqueue_group, group_setGroup_self, hy]
    exact ⟨by simp [State.enqueue], fun h => (by cases h), fun h => absurd h hown, fun h => absurd rfl h.2⟩

theorem QueueKept.reconsider {D : Set GroupNum} (hs : QueueKept s D) : QueueKept s.reconsiderUnreported D := by
  obtain ⟨-, heq⟩ | ⟨tk, g, k, -, -, -, heq⟩ := s.reconsiderUnreported_cases <;> rw [heq]
  · exact hs
  · exact hs.of_same rfl (state_set rfl) rfl

theorem busy_of_notBeyondArmed {x : Group} (h : x.notBeyondArmed = true) : x.state.busy = false := by
  unfold Group.notBeyondArmed at h
  split at h
  · next hx => rw [hx]; rfl
  · next hx => rw [hx]; rfl
  · next hx => rw [hx]; rfl
  all_goals cases h

theorem busy_eq_false_of_disarmed (x : Group) (h : x.state.busy = false) :
    (if x.state = .armed then x.disarmed else x).state.busy = false := by
  split
  · rfl
  · exact h

theorem move_keeps_queue (s t : State) (D E : Set GroupNum) (h : Move (s, D) (t, E)) (hs : QueueKept s D) : QueueKept t E := by
  cases h with
  | outside | timebase | records | enableRing | watch | resetting | activate | window | arbiter | grantInitiator
  | pass | answered | freed | holdForRoom | holdForMode | countHold | withdrawInitiator | beginFlush =>
    exact hs.of_same rfl (fun _ => rfl) rfl
  | reconsider => exact hs.reconsider
  | stepStatus _ _ c st hc | nextStep _ _ c _ _ hc => exact hs.of_same rfl (fun _ => rfl) (by rw [hc]; rfl)
  | bypassAtOnce _ h hmode =>
    have hrest : ∀ g, (s.group g).state.busy = false := fun g =>
      busy_of_notBeyondArmed (List.all_eq_true.mp (Bool.and_eq_true_iff.mp h).2 _ (Table8.get_mem_toList _ g))
    refine ⟨hs.nodup, fun g => (hs.placed g).change (hrest g) ?_⟩
    rw [disarmAll, group_def, Table8.get_map]
    exact busy_eq_false_of_disarmed _ (hrest g)
  | completeFlush =>
    obtain ⟨-, heq⟩ | ⟨_, _, -, heq⟩ := (s.setMode .bypass).passHeld_cases <;> rw [completeFlush, heq]
    · exact hs.of_same rfl (fun _ => rfl) rfl
    · exact hs.of_same rfl (fun _ => rfl) rfl
  | completeSoftReset =>
    obtain ⟨q, -, heq⟩ := s.completeSoftReset_cases
    rw [heq]
    exact queueKept_of_idle rfl rfl (fun g => by rw [group_def, Table8.get_fill]; rfl)
  | blocksReset => exact queueKept_of_idle rfl rfl (fun g => by rw [group_def]; exact (congrArg (·.state.busy) (Table8.get_fill Group.initial g)))
  | tune _ _ g y h | place _ _ g y _ _ _ _ _ _ _ h | merge _ _ g y _ _ _ _ h => exact hs.of_same rfl (state_set h.state) rfl
  | release _ _ g y h =>
    have hy : y.state = (s.group g).state := h.elim (·.state) (·.state)
    exact (hs.of_same (t := s.setGroup g y) rfl (state_set hy) rfl).reconsider
  | reopen _ _ g y st hx hst h =>
    refine hs.set g y ((hs.placed g).change (by rcases hx with hx | hx <;> rw [hx] <;> rfl) ?_)
    rw [h.state]
    rcases hst with rfl | ⟨rfl, -⟩ <;> rfl
  | sealAtPoint _ _ g y hx hmode h => exact hs.set g y ((hs.placed g).change (by rw [hx]; rfl) (by rw [h.state]; rfl))
  | turnOff _ _ g y hx _ _ _ h =>
    exact hs.set g y ((hs.placed g).change (by rcases hx with hx | hx <;> rw [hx] <;> rfl) (by rw [h.state]; rfl))
  | configure _ _ g y _ _ _ hx _ _ _ _ h =>
    exact (hs.set g y ((hs.placed g).change (by rcases hx with hx | hx <;> rw [hx] <;> rfl) (by rw [h.state]; rfl))).reconsider
  | commit _ _ g y hx hmode h =>
    have hp := (hs.placed g).not_awaited (by rw [hx]; exact GroupState.noConfusion) (by rw [hx]; exact GroupState.noConfusion)
    have hnext := hs.enqueue g y h.state (by rw [hx]; exact GroupState.noConfusion)
      (hs.not_owner (by rw [hx]; exact GroupState.noConfusion))
    rwa [Set.sdiff_singleton_eq_self hp] at hnext
  | sealAndQueue _ _ g y hx hmode h =>
    refine hs.enqueue g y h.state (fun hq => ?_) (fun ho => ?_)
    · rw [hq] at hx
      rcases hx with hx | hx | hx
      · cases hx
      · cases hx
      · exact (hs.placed g).not_awaited (by rw [hq]; exact GroupState.noConfusion) (by rw [hq]; exact GroupState.noConfusion) hx
    · rcases hx with hx | hx | hx
      · exact hs.not_owner (by rw [hx]; exact GroupState.noConfusion) ho
      · exact hs.not_owner (by rw [hx]; exact GroupState.noConfusion) ho
      · exact ((hs.placed g).awaited hx).2 ho
  | requeue _ g y hx h | pendAbandon _ g y hx _ h =>
    have hnext := hs.enqueue g y h.state (by rw [hx]; exact GroupState.noConfusion)
      (hs.not_owner (by rw [hx]; exact GroupState.noConfusion))
    rwa [Set.empty_sdiff] at hnext
  | returns _ _ g y st hx hst h =>
    refine hs.change g hs.nodup (fun k hne => ⟨by rw [group_setGroup_ne _ _ hne], .rfl, .rfl, by simp [hne]⟩) ?_
    rw [group_setGroup_self, h.state]
    have hp := (hs.placed g).returned hx (st' := st) (by rcases hst with rfl | rfl <;> rfl)
    exact ⟨hp.queued, fun hd => .inl ((hp.draining hd).resolve_right id), hp.owned, fun ha => absurd rfl ha.2⟩
  | takeStep _ _ g rest y kind step q htake hqueue hout h =>
    obtain ⟨hnew, hnodup⟩ := List.nodup_cons.mp (hqueue ▸ hs.nodup)
    have hqueued := (hs.placed g).queued.mp (by simp [hqueue])
    refine hs.change g hnodup (fun k hne => ⟨state_set_ne y hne, ?_, ?_, .rfl⟩) ?_
    · simp [hqueue, hne]
    · simp [engine_of_canTake htake, Ne.symm hne]
    · rw [group_def, Table8.get_set_self, h.state]
      exact ⟨⟨fun hi => absurd hi hnew, fun hq => by cases hq⟩, fun _ => .inl rfl, fun _ => rfl, fun ha =>
        absurd ha ((hs.placed g).not_awaited (by rw [hqueued]; exact GroupState.noConfusion)
          (by rw [hqueued]; exact GroupState.noConfusion))⟩
  | takeDone _ _ g rest y htake hqueue hout h =>
    obtain ⟨hnew, hnodup⟩ := List.nodup_cons.mp (hqueue ▸ hs.nodup)
    refine hs.change g hnodup (fun k hne => ⟨state_set_ne y hne, ?_, .rfl, ?_⟩) ?_
    · simp [hqueue, hne]
    · simp [hne]
    · rw [group_def, Table8.get_set_self, h.state]
      exact ⟨⟨fun hi => absurd hi hnew, fun hq => by cases hq⟩, fun _ => .inr (.inl rfl), fun _ => rfl, fun _ =>
        ⟨.inl rfl, by simp [engine_of_canTake htake]⟩⟩
  | finish _ _ c y hc hlast h =>
    have hdraining := (hs.placed c.group).owned (by rw [hc]; rfl)
    refine hs.change c.group hs.nodup (fun k hne => ⟨state_set_ne y hne, .rfl, ?_, ?_⟩) ?_
    · simp [hc, Ne.symm hne]
    · simp [hne]
    · rw [setEngine_group, group_setGroup_self, h.state, show (s.group c.group).epochEnded.state = _ from hdraining]
      refine ⟨⟨fun hi => ?_, fun hq => by cases hq⟩, fun _ => .inr (.inl rfl), fun _ => rfl, fun _ => ⟨.inl rfl, by simp⟩⟩
      rw [(hs.placed c.group).queued.mp hi] at hdraining
      cases hdraining
  | stall _ _ c y hc h =>
    have howns : s.engine.map (·.group) = some c.group := by rw [hc]; rfl
    have hdraining := (hs.placed c.group).owned howns
    refine hs.change c.group hs.nodup (fun k hne => ⟨state_set_ne y hne, .rfl, ?_, .rfl⟩) ?_
    · simp [hc, Ne.symm hne]
    · rw [setEngine_group, group_setGroup_self, h.state]
      refine ⟨⟨fun hi => ?_, fun hq => by cases hq⟩, fun hd => (by cases hd), fun ho => (by simp at ho), fun ha =>
        absurd howns ((hs.placed c.group).awaited ha).2⟩
      rw [(hs.placed c.group).queued.mp hi] at hdraining
      cases hdraining
  | closeAbandon _ g y hx _ h =>
    refine hs.change g hs.nodup (fun k hne => ⟨state_set_ne y hne, .rfl, .rfl, by simp [hne]⟩) ?_
    rw [group_setGroup_self, h.state, show (s.group g).epochEnded.state = _ from hx]
    have hp := hs.placed g
    rw [hx] at hp
    exact ⟨hp.queued, fun hd => (by cases hd), hp.owned, fun _ => ⟨.inr rfl, fun ho => by cases hp.owned ho⟩⟩

end State

/-- Settles O6. -/
theorem stepKeepsQueueLaw : Obligations.StepKeepsQueueLaw :=
  ⟨fun _ _ hs h => State.queueKept_empty_iff.mp
      (step_keeps State.QueueKept State.move_keeps_queue (State.queueKept_empty_iff.mpr hs) h),
    fun _ _ hs h => step_keeps State.PlaceKept State.move_keeps_place hs h⟩

/-- Settles O11. -/
theorem stepKeepsCountsInRange : Obligations.StepKeepsCountsInRange :=
  fun _ _ hqueue htime hcounts h => step_keeps State.InRange State.move_keeps_inRange ⟨hqueue, htime, hcounts⟩ h

end Sys2Proof.Machine
end

section
/-! PROOF. What every step keeps of the pool and the quotas, and of the store in BYPASS (O8, O7). -/

namespace Sys2Proof.Machine

/-- The entries in use after one group is replaced. -/
theorem occupancy_sum_set (t : Table8 Group) (g : GroupNum) (y : Group) :
    ((t.set g y).toList.map Group.occupancy).sum + (t.get g).occupancy = (t.toList.map Group.occupancy).sum + y.occupancy := by
  fin_cases g <;> simp [Table8.set, Table8.get, Table8.toList] <;> omega

theorem occupancy_sum_map (t : Table8 Group) (f : Group → Group) (hf : ∀ x, (f x).occupancy = x.occupancy) :
    ((t.map f).toList.map Group.occupancy).sum = (t.toList.map Group.occupancy).sum := by
  simp [Table8.map, Table8.toList, hf]

theorem Group.Alike.occupancy {x y : Group} (h : x.Alike y) : y.occupancy = x.occupancy := by
  simp only [Group.occupancy, h.filling, h.outgoing]

theorem Group.occupancy_disarm (x : Group) : (if x.state = .armed then x.disarmed else x).occupancy = x.occupancy := by
  split <;> rfl

namespace State
variable {s t : State} {D E : Set GroupNum}

/-! ## The pool (O8) -/

/-- What O8 keeps of the pool. -/
def PoolKept (s : State) (_ : Set GroupNum) : Prop := PoolLaw s

theorem poolUsed_setGroup (s : State) (g : GroupNum) (y : Group) :
    (s.setGroup g y).poolUsed + (s.group g).occupancy = s.poolUsed + y.occupancy := occupancy_sum_set s.groups g y

theorem PoolKept.of_groups (hs : PoolKept s D) (h : t.groups = s.groups) : PoolKept t E := by
  simp only [PoolKept, PoolLaw, poolUsed, h] at hs ⊢
  exact hs

/-- A group that grows no fuller leaves the pool in bounds. -/
theorem PoolKept.set (hs : PoolKept s D) {g : GroupNum} {y : Group} (hy : y.occupancy ≤ (s.group g).occupancy)
    (h : t.groups = s.groups.set g y) : PoolKept t E := by
  have hsum := s.poolUsed_setGroup g y
  have hkept : PoolKept (s.setGroup g y) E := by simp only [PoolKept, PoolLaw] at hs ⊢; omega
  exact hkept.of_groups h

theorem freeCount_pos_of_hasRoom {g : GroupNum} (h : s.hasRoom g = true) :
    (s.group g).occupancy < (s.group g).quota ∧ s.poolUsed < Config.poolSize := by
  obtain ⟨hquota, hfree⟩ := Bool.and_eq_true_iff.mp h
  exact ⟨of_decide_eq_true hquota, Nat.lt_of_sub_pos (of_decide_eq_true hfree)⟩

/-- A group that has room takes one entry. -/
theorem PoolKept.place {g : GroupNum} {y : Group} (hroom : s.hasRoom g = true)
    (hy : y.occupancy = (s.group g).occupancy + 1) (h : t.groups = s.groups.set g y) : PoolKept t E := by
  have hsum := s.poolUsed_setGroup g y
  have hfree := (freeCount_pos_of_hasRoom hroom).2
  have hkept : PoolKept (s.setGroup g y) E := by simp only [PoolKept, PoolLaw]; omega
  exact hkept.of_groups h

theorem occupancy_allocate (x : Group) (t : Transaction) : (placed x (allocateIn x.filling t)).occupancy = x.occupancy + 1 := by
  simp only [placed, Group.occupancy, allocateIn, List.length_append, List.length_singleton]
  omega

theorem PoolKept.reconsider (hs : PoolKept s D) : PoolKept s.reconsiderUnreported D := by
  obtain ⟨-, heq⟩ | ⟨tk, g, k, -, -, hroom, heq⟩ := s.reconsiderUnreported_cases <;> rw [heq]
  · exact hs
  · exact PoolKept.place hroom (occupancy_allocate _ _) rfl

theorem occupancy_sealLists (x : Group) : x.sealLists.occupancy ≤ x.occupancy := by
  simp [Group.sealLists, Group.occupancy]

theorem occupancy_release {x y : Group}
    (h : { x with filling := x.filling.tail }.Alike y ∨ { x with outgoing := x.outgoing.tail }.Alike y) :
    y.occupancy ≤ x.occupancy := by
  rcases h with h | h <;> rw [h.occupancy] <;> simp [Group.occupancy]

theorem poolUsed_fill : ((Table8.fill Group.initial).toList.map Group.occupancy).sum = 0 := rfl

theorem move_keeps_pool (s t : State) (D E : Set GroupNum) (h : Move (s, D) (t, E)) (hs : PoolKept s D) : PoolKept t E := by
  cases h with
  | outside | timebase | records | enableRing | watch | resetting | activate | window | arbiter | grantInitiator
  | pass | answered | freed | holdForRoom | holdForMode | countHold | withdrawInitiator | beginFlush | stepStatus | nextStep =>
    exact hs.of_groups rfl
  | bypassAtOnce => exact (occupancy_sum_map s.groups _ Group.occupancy_disarm).le.trans hs
  | completeFlush =>
    obtain ⟨-, heq⟩ | ⟨_, _, -, heq⟩ := (s.setMode .bypass).passHeld_cases <;> rw [completeFlush, heq]
    · exact hs.of_groups rfl
    · exact hs.of_groups rfl
  | completeSoftReset =>
    obtain ⟨q, -, heq⟩ := s.completeSoftReset_cases
    rw [heq]
    exact poolUsed_fill.le.trans (Nat.zero_le _)
  | blocksReset => exact poolUsed_fill.le.trans (Nat.zero_le _)
  | tune _ _ g y h | reopen _ _ g y _ _ _ h | commit _ _ g y _ _ h | returns _ _ g y _ _ _ h | takeStep _ _ g _ y _ _ _ _ _ _ h
  | takeDone _ _ g _ y _ _ _ h | finish _ _ c y _ _ h | stall _ _ c y _ h | requeue _ g y _ h | pendAbandon _ g y _ _ h
  | closeAbandon _ g y _ _ h | turnOff _ _ g y _ _ _ _ h => exact hs.set h.occupancy.le rfl
  | sealAtPoint _ _ g y _ _ h | sealAndQueue _ _ g y _ _ h => exact hs.set (h.occupancy.le.trans (occupancy_sealLists _)) rfl
  | place _ _ g y e _ _ _ hroom _ _ h =>
    refine PoolKept.place hroom (h.occupancy.trans ?_) rfl
    simp only [Group.occupancy, List.length_append, List.length_singleton]
    omega
  | merge _ _ g y l _ _ hl h =>
    refine hs.set (h.occupancy.trans ?_).le rfl
    simp only [Group.occupancy, ← List.length_map (as := l) (·.addr), hl, List.length_map]
  | reconsider => exact hs.reconsider
  | release _ _ g y h => exact (hs.set (t := s.setGroup g y) (E := D) (occupancy_release h) rfl).reconsider
  | configure _ _ g y _ _ _ _ _ _ _ _ h => exact (hs.set (t := s.setGroup g y) (E := D) h.occupancy.le rfl).reconsider

/-! ## The quotas (O8) -/

/-- What O8 keeps of a group. -/
structure Group.WithinQuota (x : Group) (held : Bool) : Prop where
  quota : x.occupancy ≤ x.quota
  off : x.state = .off → x.occupancy = 0
  held : held = true → x.state ≠ .off

/-- What O8 keeps of the quotas and the held write. -/
def QuotaKept (s : State) (_ : Set GroupNum) : Prop := ∀ g, Group.WithinQuota (s.group g) (s.port.heldFor g)

theorem quotaKept_iff : QuotaKept s D ↔ QuotaLaw s :=
  ⟨fun h => ⟨fun g => ⟨(h g).quota, (h g).off⟩, fun g => (h g).held⟩, fun h g => ⟨(h.1 g).1, (h.1 g).2, h.2 g⟩⟩

theorem QuotaKept.of_groups (hs : QuotaKept s D) (h : t.groups = s.groups)
    (hport : ∀ g, t.port.heldFor g = true → s.port.heldFor g = true) : QuotaKept t E := by
  intro g
  rw [group_def, h]
  exact ⟨(hs g).quota, (hs g).off, fun hg => (hs g).held (hport g hg)⟩

/-- One group is replaced. -/
theorem QuotaKept.set (hs : QuotaKept s D) {g : GroupNum} {y : Group} (hy : Group.WithinQuota y (t.port.heldFor g))
    (h : t.groups = s.groups.set g y) (hport : ∀ k, t.port.heldFor k = true → s.port.heldFor k = true) : QuotaKept t E := by
  intro k
  rw [group_def, h, Table8.get_set]
  split
  · next heq => exact heq ▸ hy
  · exact ⟨(hs k).quota, (hs k).off, fun hk => (hs k).held (hport k hk)⟩

/-- A group in service stays within its quota when it grows no fuller. -/
theorem Group.WithinQuota.of_on {x y : Group} {held : Bool} (h : Group.WithinQuota x held) (hquota : y.quota = x.quota)
    (hocc : y.occupancy ≤ x.occupancy) (hoff : y.state ≠ .off) : Group.WithinQuota y held :=
  ⟨hquota ▸ hocc.trans h.quota, fun ho => absurd ho hoff, fun _ => hoff⟩

/-- A group of the same state stays within its quota when it grows no fuller. -/
theorem Group.WithinQuota.of_state {x y : Group} {held : Bool} (h : Group.WithinQuota x held) (hquota : y.quota = x.quota)
    (hocc : y.occupancy ≤ x.occupancy) (hstate : y.state = x.state) : Group.WithinQuota y held :=
  ⟨hquota ▸ hocc.trans h.quota, fun ho => Nat.le_zero.mp ((h.off (hstate ▸ ho)) ▸ hocc), fun hh => hstate ▸ h.held hh⟩

theorem QuotaKept.reconsider (hs : QuotaKept s D) : QuotaKept s.reconsiderUnreported D := by
  obtain ⟨-, heq⟩ | ⟨tk, g, k, hport, -, hroom, heq⟩ := s.reconsiderUnreported_cases <;> rw [heq]
  · exact hs
  · have hon : (s.group g).state ≠ .off := (hs g).held (by simp [hport, Port.heldFor])
    refine hs.set (y := placed _ _) ⟨?_, fun ho => absurd ho hon, fun hh => Bool.noConfusion hh⟩ rfl (fun k hk => Bool.noConfusion hk)
    rw [occupancy_allocate]
    exact (freeCount_pos_of_hasRoom hroom).1

theorem heldFor_holdForMode (p : Port) (g : GroupNum) : p.holdForMode.heldFor g = p.heldFor g := by
  cases p <;> rfl

theorem withinQuota_initial : Group.WithinQuota Group.initial false :=
  ⟨Nat.le_refl 0, fun _ => rfl, fun h => Bool.noConfusion h⟩

theorem move_keeps_quota (s t : State) (D E : Set GroupNum) (h : Move (s, D) (t, E)) (hs : QuotaKept s D) : QuotaKept t E := by
  cases h with
  | outside | timebase | records | enableRing | watch | resetting | activate | window | arbiter | grantInitiator
  | stepStatus | nextStep => exact hs.of_groups rfl (fun _ => id)
  | pass | answered | freed | withdrawInitiator => exact hs.of_groups rfl (fun _ hk => Bool.noConfusion hk)
  | holdForRoom _ _ t g n _ hon | holdForMode _ _ t g n _ hon =>
    intro k
    refine ⟨(hs k).quota, (hs k).off, fun hk => ?_⟩
    rw [← beq_iff_eq.mp (show (g == k) = true from hk)]
    exact hon
  | countHold _ _ t g r n m h => exact hs.of_groups rfl (fun k hk => by rw [h]; exact hk)
  | beginFlush => exact hs.of_groups rfl (fun k hk => heldFor_holdForMode s.port k ▸ hk)
  | bypassAtOnce h =>
    intro k
    rw [disarmAll, group_def, Table8.get_map]
    split
    · next ha => exact (hs k).of_on rfl le_rfl GroupState.noConfusion
    · exact hs k
  | completeFlush =>
    obtain ⟨-, heq⟩ | ⟨_, _, -, heq⟩ := (s.setMode .bypass).passHeld_cases <;> rw [completeFlush, heq]
    · exact hs.of_groups rfl (fun _ => id)
    · exact hs.of_groups rfl (fun _ hk => Bool.noConfusion hk)
  | completeSoftReset =>
    obtain ⟨q, -, heq⟩ := s.completeSoftReset_cases
    rw [heq]
    intro k
    rw [group_def, Table8.get_fill, show s.port.afterSoftReset.heldFor k = false by cases s.port <;> rfl]
    exact withinQuota_initial
  | blocksReset =>
    intro k
    rw [group_def, show (s.blocksReset _ _).groups = .fill Group.initial from rfl, Table8.get_fill]
    exact withinQuota_initial
  | tune _ _ g y h | finish _ _ c y _ _ h | closeAbandon _ g y _ _ h =>
    exact hs.set ((hs _).of_state h.quota h.occupancy.le h.state) rfl (fun _ => id)
  | reopen _ _ g y _ _ hst h =>
    refine hs.set ((hs _).of_on h.quota h.occupancy.le ?_) rfl (fun _ => id)
    rw [h.state]
    rcases hst with rfl | ⟨rfl, -⟩ <;> exact GroupState.noConfusion
  | returns _ _ g y _ _ hst h =>
    refine hs.set ((hs _).of_on h.quota h.occupancy.le ?_) rfl (fun _ => id)
    rw [h.state]
    rcases hst with rfl | rfl <;> exact GroupState.noConfusion
  | commit _ _ g y _ _ h | takeStep _ _ g _ y _ _ _ _ _ _ h
  | takeDone _ _ g _ y _ _ _ h | stall _ _ c y _ h | requeue _ g y _ h | pendAbandon _ g y _ _ h =>
    exact hs.set ((hs _).of_on h.quota h.occupancy.le (by rw [h.state]; exact GroupState.noConfusion)) rfl (fun _ => id)
  | sealAtPoint _ _ g y _ _ h | sealAndQueue _ _ g y _ _ h =>
    exact hs.set ((hs g).of_on h.quota (h.occupancy.le.trans (occupancy_sealLists _))
      (by rw [h.state]; exact GroupState.noConfusion)) rfl (fun _ => id)
  | turnOff _ _ g y _ hf ho hheld h =>
    have hempty : y.occupancy = 0 := h.occupancy.trans (by simp [Group.occupancy, hf, ho])
    exact hs.set ⟨hempty.le.trans (Nat.zero_le _), fun _ => hempty, fun hk => absurd hk (by simp [hheld])⟩ rfl (fun _ => id)
  | place _ _ g y e _ _ hon hroom _ _ h =>
    have hon' : y.state ≠ .off := h.state ▸ hon
    refine hs.set ⟨?_, fun ho => absurd ho hon', fun _ => hon'⟩ rfl (fun _ => id)
    have hocc : y.occupancy = (s.group g).occupancy + 1 := by
      rw [h.occupancy]
      simp only [Group.occupancy, List.length_append, List.length_singleton]
      omega
    rw [hocc, h.quota]
    exact (freeCount_pos_of_hasRoom hroom).1
  | merge _ _ g y l _ hon hl h =>
    refine hs.set ((hs g).of_state h.quota (h.occupancy.trans ?_).le h.state) rfl (fun _ => id)
    simp only [Group.occupancy, ← List.length_map (as := l) (·.addr), hl, List.length_map]
  | reconsider => exact hs.reconsider
  | release _ _ g y h =>
    have hkept : QuotaKept (s.setGroup g y) D :=
      hs.set ((hs g).of_state (h.elim (·.quota) (·.quota)) (occupancy_release h) (h.elim (·.state) (·.state))) rfl (fun _ => id)
    exact hkept.reconsider
  | configure _ _ g y _ _ _ hx _ hroom _ _ h =>
    have hon : y.state ≠ .off := by rw [h.state]; exact GroupState.noConfusion
    have hocc : y.occupancy = (s.group g).occupancy := h.occupancy
    have hfits : y.occupancy ≤ y.quota := by
      rw [hocc, h.quota]
      rcases hx with hx | hx
      · exact ((hs g).off hx).le.trans (Nat.zero_le _)
      · exact hroom hx
    have hkept : QuotaKept (s.setGroup g y) D := hs.set ⟨hfits, fun ho => absurd ho hon, fun _ => hon⟩ rfl (fun _ => id)
    exact hkept.reconsider

/-! ## BYPASS (O7) -/

/-- The group is OFF or OPEN and holds nothing (R163). -/
structure Group.Rests (x : Group) : Prop where
  state : x.state = .off ∨ x.state = .opened
  filling : x.filling = []
  outgoing : x.outgoing = []

/-- What O7 keeps. -/
def BypassKept (s : State) (_ : Set GroupNum) : Prop := s.mode = .bypass → ∀ g, Group.Rests (s.group g)

theorem bypassKept_iff : BypassKept s D ↔ BypassLaw s :=
  ⟨fun h hm g => ⟨(h hm g).state, (h hm g).filling, (h hm g).outgoing⟩, fun h hm g => ⟨(h hm g).1, (h hm g).2.1, (h hm g).2.2⟩⟩

theorem bypassKept_of_mode (h : s.mode ≠ .bypass) : BypassKept s D := fun hm => absurd hm h

theorem bypassKept_of_active (h : s.mode = .active) : BypassKept s D :=
  bypassKept_of_mode (by rw [h]; exact Mode.noConfusion)

/-- One group is replaced; it need be considered only where it rests. -/
theorem BypassKept.set (hs : BypassKept s D) {g : GroupNum} {y : Group} (h : t.groups = s.groups.set g y) (hmode : t.mode = s.mode)
    (hy : s.mode = .bypass → Group.Rests (s.group g) → Group.Rests y) : BypassKept t E := by
  intro hm k
  rw [hmode] at hm
  rw [group_def, h, Table8.get_set]
  split
  · exact hy hm (hs hm g)
  · exact hs hm k

/-- A group that rests is in no busy state. -/
theorem Group.Rests.not_busy {x : Group} (h : Group.Rests x) : x.state.busy = false := by
  rcases h.state with hx | hx <;> rw [hx] <;> rfl

theorem rests_of_alike {x y : Group} (hxy : x.Alike y) (h : Group.Rests x) : Group.Rests y :=
  ⟨hxy.state ▸ h.state, hxy.filling.trans h.filling, hxy.outgoing.trans h.outgoing⟩

theorem rests_of_flushed {x : Group} {held : Bool} (h : x.flushed = true) (hq : Group.WithinQuota x held) : Group.Rests x := by
  rcases Bool.or_eq_true_iff.mp h with h | h
  · have hempty := hq.off (beq_iff_eq.mp h)
    simp only [Group.occupancy, Nat.add_eq_zero_iff, List.length_eq_zero_iff] at hempty
    exact ⟨.inl (beq_iff_eq.mp h), hempty.1, hempty.2⟩
  · simp only [Bool.and_eq_true, beq_iff_eq, List.isEmpty_iff] at h
    exact ⟨.inr h.1.1, h.1.2, h.2⟩

/-- The groups of a state that goes to BYPASS at once rest, once the ARMED ones are disarmed (R164, R165). -/
theorem rests_disarmAll (h : s.bypassAtOnce = true) (g : GroupNum) : Group.Rests (s.disarmAll.group g) := by
  obtain ⟨hempty, harmed⟩ := Bool.and_eq_true_iff.mp h
  have hlists := List.all_eq_true.mp hempty _ (Table8.get_mem_toList s.groups g)
  have hstate := List.all_eq_true.mp harmed _ (Table8.get_mem_toList s.groups g)
  simp only [Bool.and_eq_true, List.isEmpty_iff] at hlists
  rw [disarmAll, group_def, Table8.get_map]
  unfold Group.notBeyondArmed at hstate
  split
  · exact ⟨.inr rfl, hlists.1, hlists.2⟩
  · next hnot =>
    refine ⟨?_, hlists.1, hlists.2⟩
    split at hstate
    · next hx => exact .inl hx
    · next hx => exact .inr hx
    · next hx => exact absurd hx hnot
    all_goals cases hstate

theorem flushDone_parts (h : s.flushDone = true) :
    s.mode = .quiescing ∧ (∀ g, (s.group g).flushed = true) ∧ s.commitQueue = [] ∧ s.engine = none := by
  simp only [flushDone, Bool.and_eq_true, beq_iff_eq, List.isEmpty_iff, Option.isNone_iff_eq_none] at h
  obtain ⟨⟨⟨hmode, hgroups⟩, hqueue⟩, hengine⟩ := h
  exact ⟨hmode, fun g => List.all_eq_true.mp hgroups _ (Table8.get_mem_toList s.groups g), hqueue, hengine⟩

/-- In BYPASS no group is in the queue, at the engine, or awaits its state. -/
theorem QueuePlace.absurd_of_rests {i o a : Prop} {x : Group} (h : QueuePlace i x.state o a) (hx : Group.Rests x) : ¬ i ∧ ¬ o ∧ ¬ a := by
  have hbusy := hx.not_busy
  refine ⟨fun hi => ?_, fun ho => ?_, fun ha => ?_⟩
  · rw [h.queued.mp hi] at hbusy; cases hbusy
  · rw [h.owned ho] at hbusy; cases hbusy
  · rcases (h.awaited ha).1 with hst | hst <;> rw [hst] at hbusy <;> cases hbusy

theorem BypassKept.reconsider (hs : BypassKept s D) : BypassKept s.reconsiderUnreported D := by
  obtain ⟨-, heq⟩ | ⟨tk, g, k, -, hmode, -, heq⟩ := s.reconsiderUnreported_cases <;> rw [heq]
  · exact hs
  · exact bypassKept_of_active hmode

theorem move_keeps_bypass (s t : State) (D E : Set GroupNum) (h : Move (s, D) (t, E)) (hq : QueueKept s D) (hquota : QuotaKept s D)
    (hs : BypassKept s D) : BypassKept t E := by
  cases h with
  | outside | timebase | records | enableRing | watch | window | arbiter | grantInitiator
  | pass | answered | freed | holdForRoom | holdForMode | countHold | withdrawInitiator | stepStatus | nextStep => exact hs
  | resetting | activate | beginFlush => exact bypassKept_of_mode Mode.noConfusion
  | bypassAtOnce _ h hmode => exact fun _ => rests_disarmAll h
  | completeFlush _ h =>
    have hrests : ∀ g, Group.Rests (s.group g) := fun g => rests_of_flushed ((flushDone_parts h).2.1 g) (hquota g)
    obtain ⟨-, heq⟩ | ⟨_, _, -, heq⟩ := (s.setMode .bypass).passHeld_cases <;> rw [completeFlush, heq]
    · exact fun _ => hrests
    · exact fun _ => hrests
  | completeSoftReset =>
    obtain ⟨q, -, heq⟩ := s.completeSoftReset_cases
    rw [heq]
    intro _ k
    rw [group_def, Table8.get_fill]
    exact ⟨.inl rfl, rfl, rfl⟩
  | blocksReset =>
    intro _ k
    rw [group_def, show (s.blocksReset _ _).groups = .fill Group.initial from rfl, Table8.get_fill]
    exact ⟨.inl rfl, rfl, rfl⟩
  | tune _ _ g y h => exact hs.set rfl rfl (fun _ hx => rests_of_alike h hx)
  | reopen _ _ g y st hx hst h =>
    refine hs.set rfl rfl (fun hm hrest => rests_of_alike h ⟨?_, hrest.filling, hrest.outgoing⟩)
    rcases hst with rfl | ⟨-, hmode⟩
    · exact .inr rfl
    · rw [hmode] at hm; cases hm
  | sealAtPoint _ _ g y _ hmode | merge _ _ g y _ hmode | place _ _ g y _ _ hmode => exact bypassKept_of_active hmode
  | commit _ _ g y _ hmode | sealAndQueue _ _ g y _ hmode => exact bypassKept_of_mode hmode
  | returns _ _ g y st hx hst h => exact hs.set rfl rfl (fun _ hrest => absurd hx ((hq.placed g).absurd_of_rests hrest).2.2)
  | takeStep _ _ g rest y _ _ _ _ hqueue | takeDone _ _ g rest y _ hqueue =>
    exact hs.set rfl rfl (fun _ hrest => absurd (by simp [hqueue]) ((hq.placed g).absurd_of_rests hrest).1)
  | finish _ _ c y hc | stall _ _ c y hc =>
    exact hs.set rfl rfl (fun _ hrest => absurd (by simp [hc]) ((hq.placed c.group).absurd_of_rests hrest).2.1)
  | requeue _ g y hx | pendAbandon _ g y hx | closeAbandon _ g y hx =>
    refine hs.set rfl rfl (fun _ hrest => ?_)
    have hbusy := hrest.not_busy
    rw [hx] at hbusy
    cases hbusy
  | turnOff _ _ g y _ hf ho _ h =>
    exact hs.set rfl rfl (fun _ hrest => rests_of_alike h ⟨.inl rfl, hrest.filling, hrest.outgoing⟩)
  | reconsider => exact hs.reconsider
  | release _ _ g y h =>
    have hkept : BypassKept (s.setGroup g y) D := hs.set rfl rfl (fun _ hrest => h.elim
      (rests_of_alike · ⟨hrest.state, by simp [hrest.filling], hrest.outgoing⟩)
      (rests_of_alike · ⟨hrest.state, hrest.filling, by simp [hrest.outgoing]⟩))
    exact hkept.reconsider
  | configure _ _ g y _ _ _ _ _ _ _ _ h =>
    have hkept : BypassKept (s.setGroup g y) D :=
      hs.set rfl rfl (fun _ hrest => rests_of_alike h ⟨.inr rfl, hrest.filling, hrest.outgoing⟩)
    exact hkept.reconsider

end State

/-- Settles O7. -/
theorem stepKeepsBypassLaw : Obligations.StepKeepsBypassLaw := by
  intro s t hqueue hquota hbypass h
  have hkept := step_keeps (fun a D => State.QueueKept a D ∧ State.QuotaKept a D ∧ State.BypassKept a D)
    (fun a b D E hm ⟨hq, hw, hb⟩ =>
      ⟨State.move_keeps_queue a b D E hm hq, State.move_keeps_quota a b D E hm hw, State.move_keeps_bypass a b D E hm hq hw hb⟩)
    ⟨State.queueKept_empty_iff.mpr hqueue, State.quotaKept_iff.mpr hquota, State.bypassKept_iff.mpr hbypass⟩ h
  exact State.bypassKept_iff.mp hkept.2.2

/-- Settles O8. -/
theorem stepKeepsPoolAndQuotas : Obligations.StepKeepsPoolAndQuotas := by
  intro s t hpool hquota h
  have hpool' : PoolLaw t := step_keeps State.PoolKept State.move_keeps_pool hpool h
  refine ⟨hpool', ?_, State.quotaKept_iff.mp (step_keeps State.QuotaKept State.move_keeps_quota (State.quotaKept_iff.mpr hquota) h)⟩
  exact Nat.sub_add_cancel hpool'

end Sys2Proof.Machine
end

section
/-! PROOF. What every step keeps of the addresses: windows, ring and markers stay apart (O9). -/

namespace Sys2Proof.Machine

theorem rangesMeet_comm (a m b n : Nat) : rangesMeet a m b n = rangesMeet b n a m := by
  simp only [rangesMeet, decide_eq_decide]
  tauto

theorem mem_ringCapacities_pos {n : Nat} (h : ringCapacities.contains n = true) : 0 < n := by
  have hmem := List.contains_iff_mem.mp h
  simp only [ringCapacities, List.mem_cons, List.not_mem_nil, or_false] at hmem
  omega

namespace RecordUnit
variable {r t : RecordUnit}

theorem meetsRange_of_within (h : r.Within t) {b n : Nat} (hr : r.meetsRange b n = false) : t.meetsRange b n = false := by
  cases he : t.enabled with
  | false => simp [meetsRange, he]
  | true =>
    obtain ⟨her, hbase, hcapacity, hhead, htail⟩ := h.ring he
    unfold meetsRange at hr ⊢
    rwa [he, hbase, hcapacity, hhead, htail, ← her]

theorem holdsWord_of_within (h : r.Within t) {a : Addr} (hr : r.holdsWord a = false) : t.holdsWord a = false := by
  cases he : t.enabled with
  | false => simp [holdsWord, he]
  | true =>
    obtain ⟨her, hbase, hcapacity, hhead, htail⟩ := h.ring he
    unfold holdsWord at hr ⊢
    rwa [he, hbase, hcapacity, hhead, htail, ← her]

end RecordUnit

namespace State
variable {s t : State} {D E : Set GroupNum}

/-- The marker address of a group in service. -/
def marks (s : State) (g : GroupNum) : Option Addr := if (s.group g).state = .off then none else (s.group g).marker

/-- What O9 keeps. -/
structure AddressKept (s : State) (D : Set GroupNum) : Prop where
  windows : ∀ i j : WindowNum, i ≠ j → (s.windows.get i).enabled = true →
    (s.windows.get j).meets (s.windows.get i).base.toNat (s.windows.get i).size.toNat = false
  ring : ∀ i : WindowNum, (s.windows.get i).enabled = true →
    s.records.meetsRange (s.windows.get i).base.toNat (s.windows.get i).size.toNat = false
  inWindow : ∀ g m, s.marks g = some m → ∀ i, (s.windows.get i).matchesAddr m = false
  inRing : ∀ g m, s.marks g = some m → s.records.holdsWord m = false
  shared : ∀ g m, s.marks g = some m → ∀ h, h ≠ g → s.marks h ≠ some m

theorem marks_eq_some_iff {g : GroupNum} {m : Addr} :
    s.marks g = some m ↔ (s.group g).state ≠ .off ∧ (s.group g).marker = some m := by
  unfold marks
  split
  · next h => simp [h]
  · next h => simp [h]

theorem addressKept_iff : AddressKept s D ↔ AddressLaw s := by
  constructor
  · rintro ⟨hwindows, hring, hinWindow, hinRing, hshared⟩
    refine ⟨hwindows, hring, fun g hon => ?_⟩
    cases hm : (s.group g).marker with
    | none => rfl
    | some m =>
      have hmarks := marks_eq_some_iff.mpr ⟨hon, hm⟩
      simp only [Option.all_some, Bool.and_eq_true, Bool.not_eq_true']
      refine ⟨⟨?_, hinRing g m hmarks⟩, ?_⟩
      · rw [Bool.eq_false_iff, Ne, Table8.any_toList_iff]
        rintro ⟨i, hi⟩
        rw [hinWindow g m hmarks i] at hi
        cases hi
      · rw [Bool.eq_false_iff, Ne, List.any_eq_true]
        rintro ⟨h, -, hh⟩
        simp only [Bool.and_eq_true, bne_iff_ne, beq_iff_eq] at hh
        exact hshared g m hmarks h hh.1.1 (marks_eq_some_iff.mpr ⟨hh.1.2, hh.2⟩)
  · rintro ⟨hwindows, hring, hmarkers⟩
    have hparts : ∀ g m, s.marks g = some m → s.windows.toList.any (fun w => w.matchesAddr m) = false ∧
        s.records.holdsWord m = false ∧
        allGroups.any (fun h => h != g && (s.group h).state != .off && (s.group h).marker == some m) = false := by
      intro g m h
      obtain ⟨hon, hm⟩ := marks_eq_some_iff.mp h
      have hall := hmarkers g hon
      rw [hm] at hall
      simp only [Option.all_some, Bool.and_eq_true, Bool.not_eq_true'] at hall
      exact ⟨hall.1.1, hall.1.2, hall.2⟩
    refine ⟨hwindows, hring, fun g m h i => ?_, fun g m h => (hparts g m h).2.1, fun g m h k hk hkm => ?_⟩
    · rw [Bool.eq_false_iff]
      intro hi
      have hany := (Table8.any_toList_iff s.windows (fun w => w.matchesAddr m)).mpr ⟨i, hi⟩
      rw [(hparts g m h).1] at hany
      cases hany
    · obtain ⟨hon, hm⟩ := marks_eq_some_iff.mp hkm
      have hnone := (hparts g m h).2.2
      rw [List.any_eq_false] at hnone
      exact hnone k (mem_allGroups k) (by simp [hk, hon, hm])

/-- A group that awaits its state is in service. -/
theorem QueuePlace.on_of_awaited {i o a : Prop} {st : GroupState} (h : QueuePlace i st o a) (ha : a) : st ≠ .off := by
  rcases (h.awaited ha).1 with hst | hst <;> rw [hst] <;> exact GroupState.noConfusion

/-- The windows stay, the ring stays or goes, and markers may go out of service. -/
theorem AddressKept.of_marks (hs : AddressKept s D) (hw : t.windows = s.windows) (hr : s.records.Within t.records)
    (hm : ∀ g m, t.marks g = some m → s.marks g = some m) : AddressKept t E := by
  refine ⟨hw ▸ hs.windows, fun i hi => ?_, fun g m h i => ?_, fun g m h => ?_, fun g m h k hk hkm => ?_⟩
  · rw [hw] at hi ⊢
    exact RecordUnit.meetsRange_of_within hr (hs.ring i hi)
  · rw [hw]
    exact hs.inWindow g m (hm g m h) i
  · exact RecordUnit.holdsWord_of_within hr (hs.inRing g m (hm g m h))
  · exact hs.shared g m (hm g m h) k hk (hm k m hkm)

theorem marks_of_groups (h : t.groups = s.groups) (g : GroupNum) (m : Addr) (hm : t.marks g = some m) : s.marks g = some m := by
  unfold marks at hm ⊢
  rw [group_def, h] at hm
  exact hm

/-- One group is replaced, which keeps its marker and was in service if it is now. -/
theorem marks_of_set {g : GroupNum} {y : Group} (h : t.groups = s.groups.set g y) (hmarker : y.marker = (s.group g).marker)
    (hon : y.state ≠ .off → (s.group g).state ≠ .off) (k : GroupNum) (m : Addr) (hm : t.marks k = some m) : s.marks k = some m := by
  obtain ⟨hk, hkm⟩ := marks_eq_some_iff.mp hm
  rw [group_def, h, Table8.get_set] at hk hkm
  split at hk
  · next heq =>
    rw [if_pos heq] at hkm
    exact heq ▸ marks_eq_some_iff.mpr ⟨hon hk, hmarker ▸ hkm⟩
  · next hne =>
    rw [if_neg hne] at hkm
    exact marks_eq_some_iff.mpr ⟨hk, hkm⟩

theorem AddressKept.set (hs : AddressKept s D) {g : GroupNum} {y : Group} (hw : t.windows = s.windows) (hr : t.records = s.records)
    (h : t.groups = s.groups.set g y) (hmarker : y.marker = (s.group g).marker)
    (hon : y.state ≠ .off → (s.group g).state ≠ .off) : AddressKept t E :=
  hs.of_marks hw (hr ▸ .refl _) (marks_of_set h hmarker hon)

theorem AddressKept.reconsider (hs : AddressKept s D) : AddressKept s.reconsiderUnreported D := by
  obtain ⟨-, heq⟩ | ⟨tk, g, k, -, -, -, heq⟩ := s.reconsiderUnreported_cases <;> rw [heq]
  · exact hs
  · exact hs.set rfl rfl rfl rfl id

/-- Nothing is enabled and nothing in service. -/
theorem addressKept_initial (hw : t.windows = .fill Window.initial)
    (hg : t.groups = .fill Group.initial) : AddressKept t E := by
  have hoff : ∀ g m, t.marks g ≠ some m := by
    intro g m hm
    have hon := (marks_eq_some_iff.mp hm).1
    rw [group_def, hg, Table8.get_fill] at hon
    exact hon rfl
  refine ⟨fun i j _ hi => ?_, fun i hi => ?_, fun g m h => absurd h (hoff g m), fun g m h => absurd h (hoff g m),
    fun g m h => absurd h (hoff g m)⟩ <;>
  · rw [hw, Table8.get_fill] at hi
    cases hi

/-- An enabled window that meets nothing is written (R98). -/
theorem AddressKept.window (hs : AddressKept s D) {i : WindowNum} {w : Window}
    (hconflict : w.enabled = true → s.windowConflict i w.base.toNat w.size.toNat = false) :
    AddressKept { s with windows := s.windows.set i w } D := by
  have hfree : w.enabled = true → (∀ j, j ≠ i → (s.windows.get j).meets w.base.toNat w.size.toNat = false) ∧
      s.records.meetsRange w.base.toNat w.size.toNat = false ∧
      ∀ g m, s.marks g = some m → inRange m w.base.toNat w.size.toNat = false := by
    intro he
    have hnone := hconflict he
    simp only [windowConflict, Bool.or_eq_false_iff, List.any_eq_false] at hnone
    obtain ⟨⟨hwindows, hring⟩, hmarkers⟩ := hnone
    refine ⟨fun j hj => by simpa [hj] using hwindows j (mem_allGroups j), hring, fun g m hm => ?_⟩
    obtain ⟨hon, hmarker⟩ := marks_eq_some_iff.mp hm
    have hin := hmarkers _ (Table8.get_mem_toList s.groups g)
    rw [← group_def] at hin
    simpa [Group.markerIn, hmarker, hon] using hin
  refine ⟨fun j k hjk hj => ?_, fun j hj => ?_, fun g m h j => ?_, hs.inRing, hs.shared⟩
  · dsimp only at hj ⊢
    rw [Table8.get_set] at hj ⊢
    rw [Table8.get_set]
    by_cases hji : j = i
    · rw [if_pos hji] at hj ⊢
      rw [if_neg (fun hki => hjk (hji.trans hki.symm))]
      exact (hfree hj).1 k (fun hki => hjk (hji.trans hki.symm))
    · rw [if_neg hji] at hj ⊢
      by_cases hki : k = i
      · rw [if_pos hki, Window.meets]
        cases he : w.enabled with
        | false => rfl
        | true =>
          have hmeets := (hfree he).1 j hji
          rwa [Window.meets, hj, rangesMeet_comm] at hmeets
      · rw [if_neg hki]
        exact hs.windows j k hjk hj
  · dsimp only at hj ⊢
    rw [Table8.get_set] at hj ⊢
    by_cases hji : j = i
    · rw [if_pos hji] at hj ⊢
      exact (hfree hj).2.1
    · rw [if_neg hji] at hj ⊢
      exact hs.ring j hj
  · dsimp only
    rw [Table8.get_set]
    by_cases hji : j = i
    · rw [if_pos hji, Window.matchesAddr]
      cases he : w.enabled with
      | false => rfl
      | true => rw [(hfree he).2.2 g m h]; rfl
    · rw [if_neg hji]
      exact hs.inWindow g m h j

/-- The ring is enabled where it meets nothing (R145). -/
theorem AddressKept.enableRing (hs : AddressKept s D) {p : RingParams} (hbad : p.badValues = false)
    (hconflict : s.ringConflict p = false) (hhead : p.headAddr < 2 ^ 32) (htail : p.tailAddr < 2 ^ 32) :
    AddressKept (s.setRecords (s.records.enable p)) D := by
  have hbase : p.base < 2 ^ 32 := by
    simp only [RingParams.badValues, Bool.or_eq_false_iff, decide_eq_false_iff_not] at hbad
    have hpos := mem_ringCapacities_pos (n := p.capacity) (by simpa using hbad.1.1.1.1.1.1.1.2)
    have hend := hbad.1.1.1.1.1.1.2
    simp only [ringBytes, Config.slotBytes] at hend
    omega
  simp only [ringConflict, windowMeets, Bool.or_eq_false_iff, List.any_eq_false] at hconflict
  obtain ⟨⟨⟨harea, hheadw⟩, htailw⟩, hmarkers⟩ := hconflict
  refine ⟨hs.windows, fun i hi => ?_, hs.inWindow, fun g m h => ?_, hs.shared⟩
  · have hmem := Table8.get_mem_toList s.windows i
    have hi' : (s.windows.get i).enabled = true := hi
    have h1 := harea _ hmem
    have h2 := hheadw _ hmem
    have h3 := htailw _ hmem
    simp only [hi', Bool.true_and, Bool.not_eq_true] at h1 h2 h3
    simp only [setRecords_records, setRecords_windows, RecordUnit.meetsRange, RecordUnit.enable, Bool.true_and,
      Bool.or_eq_false_iff, BitVec.toNat_ofNat, Nat.mod_eq_of_lt hbase, Nat.mod_eq_of_lt hhead, Nat.mod_eq_of_lt htail]
    exact ⟨⟨rangesMeet_comm _ _ _ _ ▸ h1, rangesMeet_comm _ _ _ _ ▸ h2⟩, rangesMeet_comm _ _ _ _ ▸ h3⟩
  · obtain ⟨hon, hmarker⟩ := (marks_eq_some_iff (s := s)).mp h
    have hg := hmarkers _ (Table8.get_mem_toList s.groups g)
    rw [← group_def] at hg
    simp only [RingParams.holdsMarker, hmarker, RingParams.inArea, Option.any_some, Bool.and_eq_true, bne_iff_ne, ne_eq, hon,
      not_false_eq_true, true_and, Bool.not_eq_true, Bool.or_eq_false_iff, beq_eq_false_iff_ne] at hg
    obtain ⟨⟨harea, hnhead⟩, hntail⟩ := hg
    have hne : ∀ a, a < 2 ^ 32 → m.toNat ≠ a → (m == BitVec.ofNat 32 a) = false := by
      intro a ha hma
      rw [beq_eq_false_iff_ne]
      rintro rfl
      exact hma (by rw [BitVec.toNat_ofNat, Nat.mod_eq_of_lt ha])
    simp only [setRecords_records, RecordUnit.holdsWord, RecordUnit.enable, inRange, Bool.true_and, BitVec.toNat_ofNat,
      Nat.mod_eq_of_lt hbase, Bool.or_eq_false_iff]
    exact ⟨⟨harea, hne _ hhead hnhead⟩, hne _ htail hntail⟩

/-- A group is configured with a marker that meets nothing (R44). -/
theorem AddressKept.configure (hs : AddressKept s D) {g : GroupNum} {y : Group} (h : y.marker.any (s.markerConflict g) = false) :
    AddressKept (s.setGroup g y) D := by
  have hnew : ∀ m, (s.setGroup g y).marks g = some m → (∀ i, (s.windows.get i).matchesAddr m = false) ∧
      s.records.holdsWord m = false ∧ ∀ k, k ≠ g → s.marks k ≠ some m := by
    intro m hm
    have hmarker := (marks_eq_some_iff.mp hm).2
    rw [group_setGroup_self] at hmarker
    simp only [hmarker, Option.any_some, markerConflict, Bool.or_eq_false_iff, List.any_eq_false] at h
    obtain ⟨⟨hwindows, hgroups⟩, hring⟩ := h
    refine ⟨fun i => by simpa using hwindows i (mem_allGroups i), hring, fun k hk hkm => ?_⟩
    obtain ⟨hon, hkmarker⟩ := marks_eq_some_iff.mp hkm
    exact hgroups k (mem_allGroups k) (by simp [hk, hon, hkmarker])
  have hold : ∀ k, k ≠ g → (s.setGroup g y).marks k = s.marks k := by
    intro k hk
    unfold marks
    rw [group_setGroup_ne _ _ hk]
  refine ⟨hs.windows, hs.ring, fun k m hm => ?_, fun k m hm => ?_, fun k m hm j hj hjm => ?_⟩
  · by_cases hk : k = g
    · exact (hnew m (hk ▸ hm)).1
    · exact hs.inWindow k m (hold k hk ▸ hm)
  · by_cases hk : k = g
    · exact (hnew m (hk ▸ hm)).2.1
    · exact hs.inRing k m (hold k hk ▸ hm)
  · by_cases hk : k = g
    · rw [hold j (fun hjg => hj (hjg.trans hk.symm))] at hjm
      exact (hnew m (hk ▸ hm)).2.2 j (fun hjg => hj (hjg.trans hk.symm)) hjm
    · rw [hold k hk] at hm
      by_cases hjg : j = g
      · exact (hnew m (hjg ▸ hjm)).2.2 k hk hm
      · exact hs.shared k m hm j hj (hold j hjg ▸ hjm)

theorem move_keeps_address (s t : State) (D E : Set GroupNum) (h : Move (s, D) (t, E)) (hq : QueueKept s D)
    (hs : AddressKept s D) : AddressKept t E := by
  cases h with
  | outside | timebase | watch | resetting | activate | arbiter | grantInitiator
  | pass | answered | freed | holdForRoom | holdForMode | countHold | withdrawInitiator | beginFlush | stepStatus | nextStep =>
    exact hs.of_marks rfl (.refl _) (marks_of_groups rfl)
  | records _ _ r h => exact hs.of_marks rfl h (marks_of_groups rfl)
  | enableRing _ _ p r hbad hconflict hhead htail hr =>
    exact (hs.enableRing hbad hconflict hhead htail).of_marks rfl hr (marks_of_groups rfl)
  | bypassAtOnce =>
    refine hs.of_marks rfl (.refl _) (fun g m hm => ?_)
    obtain ⟨hon, hmarker⟩ := marks_eq_some_iff.mp hm
    rw [disarmAll, group_def, Table8.get_map] at hon hmarker
    split at hon
    · next ha =>
      rw [if_pos ha] at hmarker
      exact marks_eq_some_iff.mpr ⟨by rw [group_def]; exact ha ▸ GroupState.noConfusion, hmarker⟩
    · next hna =>
      rw [if_neg hna] at hmarker
      exact marks_eq_some_iff.mpr ⟨hon, hmarker⟩
  | completeFlush =>
    obtain ⟨-, heq⟩ | ⟨_, _, -, heq⟩ := (s.setMode .bypass).passHeld_cases <;> rw [completeFlush, heq]
    · exact hs.of_marks rfl (.refl _) (marks_of_groups rfl)
    · exact hs.of_marks rfl (.refl _) (marks_of_groups rfl)
  | completeSoftReset =>
    obtain ⟨q, -, heq⟩ := s.completeSoftReset_cases
    rw [heq]
    exact addressKept_initial rfl rfl
  | blocksReset => exact addressKept_initial rfl rfl
  | window _ _ i w _ hconflict => exact hs.window hconflict
  | tune _ _ g y h => exact hs.set rfl rfl rfl h.marker (fun hon => h.state ▸ hon)
  | finish _ _ c y _ _ h => exact hs.set rfl rfl rfl h.marker (fun hon => h.state ▸ hon)
  | closeAbandon _ g y _ _ h => exact hs.set rfl rfl rfl h.marker (fun hon => h.state ▸ hon)
  | reopen _ _ g y _ hx _ h =>
    exact hs.set rfl rfl rfl h.marker (fun _ => by rcases hx with hx | hx <;> rw [hx] <;> exact GroupState.noConfusion)
  | sealAtPoint _ _ g y hx _ h | commit _ _ g y hx _ h | requeue _ g y hx h | pendAbandon _ g y hx _ h =>
    exact hs.set rfl rfl rfl h.marker (fun _ => by rw [hx]; exact GroupState.noConfusion)
  | sealAndQueue _ _ g y hx _ h =>
    refine hs.set rfl rfl rfl h.marker (fun _ => ?_)
    rcases hx with hx | hx | hx
    · rw [hx]; exact GroupState.noConfusion
    · rw [hx]; exact GroupState.noConfusion
    · exact (hq.placed g).on_of_awaited hx
  | returns _ _ g y _ hx _ h => exact hs.set rfl rfl rfl h.marker (fun _ => (hq.placed g).on_of_awaited hx)
  | takeStep _ _ g rest y _ _ _ _ hqueue _ h | takeDone _ _ g rest y _ hqueue _ h =>
    refine hs.set rfl rfl rfl h.marker (fun _ => ?_)
    rw [(hq.placed g).queued.mp (by simp [hqueue])]
    exact GroupState.noConfusion
  | stall _ _ c y hc h =>
    refine hs.set rfl rfl rfl h.marker (fun _ => ?_)
    rw [(hq.placed c.group).owned (by simp [hc])]
    exact GroupState.noConfusion
  | turnOff _ _ g y _ _ _ _ h => exact hs.set rfl rfl rfl h.marker (fun hon => absurd h.state hon)
  | place _ _ g y _ _ _ _ _ _ _ h | merge _ _ g y _ _ _ _ h => exact hs.set rfl rfl rfl h.marker (fun hon => h.state ▸ hon)
  | reconsider => exact hs.reconsider
  | release _ _ g y h =>
    have hkept : AddressKept (s.setGroup g y) D := hs.set rfl rfl rfl (h.elim (·.marker) (·.marker))
      (fun hon => (h.elim (·.state) (·.state) : y.state = (s.group g).state) ▸ hon)
    exact hkept.reconsider
  | configure _ _ g y _ _ _ _ _ _ hmarker _ h => exact (hs.configure (h.marker ▸ hmarker)).reconsider

end State

/-- Settles O9. -/
theorem stepKeepsAddressLaw : Obligations.StepKeepsAddressLaw := by
  intro s t hqueue haddress h
  have hkept := step_keeps (fun a D => State.QueueKept a D ∧ State.AddressKept a D)
    (fun a b D E hm ⟨hq, ha⟩ => ⟨State.move_keeps_queue a b D E hm hq, State.move_keeps_address a b D E hm hq ha⟩)
    ⟨State.queueKept_empty_iff.mpr hqueue, State.addressKept_iff.mpr haddress⟩ h
  exact State.addressKept_iff.mp hkept.2

end Sys2Proof.Machine
end

section
/-! PROOF. What every step keeps of the word addresses: each at most once in a list, and in the lists of at most one group
(O10). -/

namespace Sys2Proof.Machine
namespace State
variable {s t : State} {D E : Set GroupNum}

/-! ## Each list -/

/-- A word address appears at most once in each list of the group (R5). -/
structure Group.ListsUnique (x : Group) : Prop where
  filling : (x.filling.map (·.addr)).Nodup
  outgoing : (x.outgoing.map (·.addr)).Nodup

/-- What O10 keeps of each list, and of the filling list that a write held with reason ROOM waits for. -/
structure ListKept (s : State) (D : Set GroupNum) : Prop where
  unique : ∀ g, Group.ListsUnique (s.group g)
  absent : ∀ t g n, s.port = .held t g .room n → findEntry (s.group g).filling t.tx.addr = none

theorem listKept_iff : ListKept s D ↔ ListLaw s := by
  constructor
  · rintro ⟨hunique, habsent⟩
    refine ⟨fun g => ⟨(hunique g).filling, (hunique g).outgoing⟩, ?_⟩
    unfold heldWordAbsent
    split
    · next hp => rw [habsent _ _ _ hp]; rfl
    all_goals rfl
  · rintro ⟨hunique, habsent⟩
    refine ⟨fun g => ⟨(hunique g).1, (hunique g).2⟩, fun t g n hp => ?_⟩
    rw [heldWordAbsent, hp] at habsent
    exact Option.isNone_iff_eq_none.mp habsent

/-- An address has no entry in a list exactly when it is none of its addresses. -/
theorem findEntry_eq_none_iff (l : List Entry) (a : Addr) : findEntry l a = none ↔ a ∉ l.map (·.addr) := by
  simp only [findEntry, List.find?_eq_none, List.mem_map, beq_iff_eq]
  constructor
  · rintro h ⟨e, he, rfl⟩; exact h e he rfl
  · exact fun h e he hea => h ⟨e, he, hea⟩

theorem findEntry_eq_none_of_subset {l m : List Entry} {a : Addr} (h : l.map (·.addr) ⊆ m.map (·.addr))
    (hm : findEntry m a = none) : findEntry l a = none := by
  rw [findEntry_eq_none_iff] at hm ⊢
  exact fun ha => hm (h ha)

theorem ListKept.of_groups (hs : ListKept s D) (h : t.groups = s.groups)
    (hport : ∀ k g n, t.port = .held k g .room n → ∃ m, s.port = .held k g .room m) : ListKept t E := by
  refine ⟨fun g => ?_, fun k g n hp => ?_⟩
  · rw [group_def, h]; exact hs.unique g
  · obtain ⟨m, hm⟩ := hport k g n hp
    rw [group_def, h]
    exact hs.absent k g m hm

/-- One group is replaced by one whose filling list has no address more. -/
theorem ListKept.set (hs : ListKept s D) {g : GroupNum} {y : Group} (h : t.groups = s.groups.set g y) (hport : t.port = s.port)
    (hy : Group.ListsUnique y) (hsub : y.filling.map (·.addr) ⊆ (s.group g).filling.map (·.addr)) : ListKept t E := by
  refine ⟨fun k => ?_, fun k j n hp => ?_⟩
  · rw [group_def, h, Table8.get_set]
    split
    · exact hy
    · exact hs.unique k
  · have hold := hs.absent k j n (hport ▸ hp)
    rw [group_def, h, Table8.get_set]
    split
    · next heq => exact findEntry_eq_none_of_subset (heq ▸ hsub) hold
    · exact hold

theorem Group.ListsUnique.alike {x y : Group} (hxy : x.Alike y) (h : Group.ListsUnique x) : Group.ListsUnique y :=
  ⟨hxy.filling ▸ h.filling, hxy.outgoing ▸ h.outgoing⟩

/-- One group is replaced by one with the same lists. -/
theorem ListKept.same (hs : ListKept s D) {g : GroupNum} {y : Group} (h : t.groups = s.groups.set g y) (hport : t.port = s.port)
    (hf : y.filling = (s.group g).filling) (ho : y.outgoing = (s.group g).outgoing) : ListKept t E :=
  hs.set h hport ⟨hf ▸ (hs.unique g).filling, ho ▸ (hs.unique g).outgoing⟩ (hf ▸ List.Subset.refl _)

/-- A new entry keeps the filling list's addresses apart. -/
theorem listsUnique_append {x : Group} {e : Entry} (h : Group.ListsUnique x) (hnew : findEntry x.filling e.addr = none) :
    Group.ListsUnique { x with filling := x.filling ++ [e] } := by
  refine ⟨?_, h.outgoing⟩
  rw [List.map_append, List.nodup_append]
  refine ⟨h.filling, List.nodup_singleton _, fun a ha b hb hab => ?_⟩
  rw [List.map_singleton, List.mem_singleton] at hb
  exact (findEntry_eq_none_iff _ _).mp hnew (hb ▸ hab ▸ ha)

/-- One group is replaced while no write is held. -/
theorem ListKept.free (hs : ListKept s D) {g : GroupNum} {y : Group} (h : t.groups = s.groups.set g y) (hport : t.port = .free)
    (hy : Group.ListsUnique y) : ListKept t E := by
  refine ⟨fun k => ?_, fun k j n hp => by rw [hport] at hp; cases hp⟩
  rw [group_def, h, Table8.get_set]
  split
  · exact hy
  · exact hs.unique k

theorem ListKept.reconsider (hs : ListKept s D) : ListKept s.reconsiderUnreported D := by
  obtain ⟨-, heq⟩ | ⟨tk, g, k, hport, -, -, heq⟩ := s.reconsiderUnreported_cases <;> rw [heq]
  · exact hs
  · refine hs.free rfl rfl ?_
    have happend := listsUnique_append (e := { addr := tk.tx.addr, data := tk.tx.data, lanes := tk.tx.lanes }) (hs.unique g)
      (hs.absent tk g k hport)
    exact ⟨happend.filling, happend.outgoing⟩

theorem listKept_initial (hg : t.groups = .fill Group.initial) (hport : ∀ k g n, t.port ≠ .held k g .room n) : ListKept t E := by
  refine ⟨fun g => ?_, fun k g n hp => absurd hp (hport k g n)⟩
  rw [group_def, hg, Table8.get_fill]
  exact ⟨List.nodup_nil, List.nodup_nil⟩

theorem holdForMode_ne_room (p : Port) (k : Taken) (g : GroupNum) (n : Nat) : p.holdForMode ≠ .held k g .room n := by
  cases p <;> simp [Port.holdForMode]

theorem afterSoftReset_ne_held (p : Port) (k : Taken) (g : GroupNum) (r : HoldReason) (n : Nat) :
    p.afterSoftReset ≠ .held k g r n := by
  cases p <;> simp [Port.afterSoftReset]

theorem move_keeps_lists (s t : State) (D E : Set GroupNum) (h : Move (s, D) (t, E)) (hs : ListKept s D) : ListKept t E := by
  cases h with
  | outside | timebase | records | enableRing | watch | resetting | activate | window | arbiter | grantInitiator
  | stepStatus | nextStep => exact hs.of_groups rfl (fun k g n hp => ⟨n, hp⟩)
  | pass | answered | freed | withdrawInitiator | holdForMode => exact hs.of_groups rfl (fun _ _ _ hp => by cases hp)
  | holdForRoom _ _ t g n _ _ _ _ _ hnew => exact ⟨hs.unique, fun k j m hp => by cases hp; exact hnew⟩
  | countHold _ _ t g r n m h => exact hs.of_groups rfl (fun k j l hp => by cases hp; exact ⟨n, h⟩)
  | beginFlush => exact hs.of_groups rfl (fun k j l hp => absurd hp (holdForMode_ne_room s.port k j l))
  | bypassAtOnce =>
    have hlists : ∀ g, (s.disarmAll.group g).filling = (s.group g).filling ∧ (s.disarmAll.group g).outgoing = (s.group g).outgoing := by
      intro g
      rw [disarmAll, group_def, Table8.get_map]
      split <;> exact ⟨rfl, rfl⟩
    refine ⟨fun g => ⟨?_, ?_⟩, fun k g n hp => ?_⟩
    · exact (hlists g).1 ▸ (hs.unique g).filling
    · exact (hlists g).2 ▸ (hs.unique g).outgoing
    · exact (congrArg (findEntry · k.tx.addr) (hlists g).1).trans (hs.absent k g n hp)
  | completeFlush =>
    obtain ⟨-, heq⟩ | ⟨_, _, -, heq⟩ := (s.setMode .bypass).passHeld_cases <;> rw [completeFlush, heq]
    · exact hs.of_groups rfl (fun k g n hp => ⟨n, hp⟩)
    · exact hs.of_groups rfl (fun _ _ _ hp => by cases hp)
  | completeSoftReset =>
    obtain ⟨q, -, heq⟩ := s.completeSoftReset_cases
    rw [heq]
    exact listKept_initial rfl (fun k g n => afterSoftReset_ne_held s.port k g .room n)
  | blocksReset => exact listKept_initial rfl (fun _ _ _ hp => by cases hp)
  | tune _ _ g y h | reopen _ _ g y _ _ _ h | commit _ _ g y _ _ h | returns _ _ g y _ _ _ h | takeStep _ _ g _ y _ _ _ _ _ _ h
  | takeDone _ _ g _ y _ _ _ h | finish _ _ c y _ _ h | stall _ _ c y _ h | requeue _ g y _ h | pendAbandon _ g y _ _ h
  | closeAbandon _ g y _ _ h | turnOff _ _ g y _ _ _ _ h => exact hs.same rfl rfl h.filling h.outgoing
  | sealAtPoint _ _ g y _ _ h | sealAndQueue _ _ g y _ _ h =>
    refine hs.set rfl rfl (Group.ListsUnique.alike h ⟨List.nodup_nil, (hs.unique g).filling⟩) ?_
    rw [h.filling]
    exact List.nil_subset _
  | place _ _ g y e hport _ _ _ hnew _ h =>
    exact hs.free rfl hport (Group.ListsUnique.alike h (listsUnique_append (hs.unique g) hnew))
  | merge _ _ g y l _ _ hl h =>
    refine hs.set rfl rfl (Group.ListsUnique.alike h ⟨hl ▸ (hs.unique g).filling, (hs.unique g).outgoing⟩) ?_
    rw [h.filling]
    exact hl ▸ List.Subset.refl _
  | reconsider => exact hs.reconsider
  | release _ _ g y h =>
    have hkept : ListKept (s.setGroup g y) D := by
      rcases h with h | h
      · refine hs.set rfl rfl (Group.ListsUnique.alike h ⟨?_, (hs.unique g).outgoing⟩) ?_
        · exact List.map_tail.symm ▸ (hs.unique g).filling.tail
        · rw [h.filling]
          exact List.map_tail.symm ▸ List.tail_subset _
      · refine hs.set rfl rfl (Group.ListsUnique.alike h ⟨(hs.unique g).filling, ?_⟩) (h.filling ▸ List.Subset.refl _)
        exact List.map_tail.symm ▸ (hs.unique g).outgoing.tail
    exact hkept.reconsider
  | configure _ _ g y _ _ _ _ _ _ _ _ h =>
    have hkept : ListKept (s.setGroup g y) D := hs.same rfl rfl h.filling h.outgoing
    exact hkept.reconsider

/-! ## The epochs -/

/-- A group in the epoch laws: its state, its outgoing list, of the epoch whether it has begun, is pending an abandon or has
failed, and whether it has completed and the group's state is still to follow. -/
structure EpochPlace (st : GroupState) (out : List Entry) (begun pending : Bool) (fault : Option Step) (awaits : Prop) : Prop where
  idle : st = .off ∨ st = .opened ∨ st = .armed → out = []
  calm : st.busy = false → begun = false ∧ pending = false ∧ fault = none
  written : pending = true ∨ fault = some .finish → out = []
  fresh : begun = false → pending = false → fault = none
  completed : awaits → out = [] ∧ begun = false ∧ pending = false ∧ fault = none

/-- The group's place in the epoch laws. -/
abbrev Group.EpochLawful (x : Group) (awaits : Prop) : Prop :=
  EpochPlace x.state x.outgoing x.progress.begun x.progress.abandonPending x.faultStep awaits

theorem epochLawful_of_alike {x y : Group} {a : Prop} (hxy : x.Alike y) (h : Group.EpochLawful x a) : Group.EpochLawful y a := by
  unfold Group.EpochLawful
  rw [hxy.state, hxy.outgoing, hxy.begun, hxy.pending, hxy.faultStep]
  exact h

/-- The engine holds a step of a begun epoch, and its last step only with the outgoing list written or dropped. -/
structure EngineLawful (s : State) (c : DrainContext) : Prop where
  begun : (s.group c.group).progress.begun = true
  last : c.step = .finish ∨ c.kind = .abandonEnd → (s.group c.group).outgoing = []

/-- What O10 keeps of the epochs and of the engine's step. -/
structure EpochKept (s : State) (D : Set GroupNum) : Prop where
  group : ∀ g, Group.EpochLawful (s.group g) (g ∈ D)
  engine : ∀ c, s.engine = some c → EngineLawful s c

theorem epochKept_empty_iff : EpochKept s ∅ ↔ EpochLaw s := by
  constructor
  · rintro ⟨hgroup, hengine⟩
    refine ⟨fun g => ⟨(hgroup g).idle, (hgroup g).calm, (hgroup g).written, (hgroup g).fresh⟩, ?_⟩
    cases hc : s.engine with
    | none => rfl
    | some c =>
      rw [Option.all_some, (hengine c hc).begun, Bool.true_and, Bool.or_eq_true, Bool.and_eq_true, bne_iff_ne, bne_iff_ne,
        List.isEmpty_iff]
      by_cases hend : c.step = .finish ∨ c.kind = .abandonEnd
      · exact .inr ((hengine c hc).last hend)
      · exact .inl (not_or.mp hend)
  · rintro ⟨hgroup, hengine⟩
    refine ⟨fun g => ⟨(hgroup g).1, (hgroup g).2.1, (hgroup g).2.2.1, (hgroup g).2.2.2, False.elim⟩, fun c hc => ?_⟩
    rw [hc, Option.all_some, Bool.and_eq_true, Bool.or_eq_true, Bool.and_eq_true, bne_iff_ne, bne_iff_ne,
      List.isEmpty_iff] at hengine
    exact ⟨hengine.1, fun hend => hengine.2.resolve_left (fun hn => hend.elim hn.1 hn.2)⟩

theorem EpochKept.of_groups (hs : EpochKept s D) (h : t.groups = s.groups)
    (hengine : ∀ c, t.engine = some c → EngineLawful s c) : EpochKept t D := by
  refine ⟨fun g => ?_, fun c hc => ⟨?_, ?_⟩⟩ <;> rw [group_def, h]
  · exact hs.group g
  · exact (hengine c hc).begun
  · exact (hengine c hc).last

/-- One group is replaced, and the engine holds what it held or nothing, or a step of that group. -/
theorem EpochKept.set (hs : EpochKept s D) {g : GroupNum} {y : Group} (h : t.groups = s.groups.set g y)
    (hE : ∀ k, k ≠ g → k ∈ E → k ∈ D) (hy : Group.EpochLawful y (g ∈ E))
    (hother : ∀ c, t.engine = some c → c.group ≠ g → s.engine = some c)
    (hown : ∀ c, t.engine = some c → c.group = g →
      y.progress.begun = true ∧ (c.step = .finish ∨ c.kind = .abandonEnd → y.outgoing = [])) : EpochKept t E := by
  refine ⟨fun k => ?_, fun c hc => ?_⟩
  · rw [group_def, h, Table8.get_set]
    split
    · next heq => exact heq ▸ hy
    · next hne =>
      have hk := hs.group k
      exact ⟨hk.idle, hk.calm, hk.written, hk.fresh, fun ha => hk.completed (hE k hne ha)⟩
  · by_cases hcg : c.group = g
    · refine ⟨?_, ?_⟩ <;> rw [hcg, group_def, h, Table8.get_set_self]
      · exact (hown c hc hcg).1
      · exact (hown c hc hcg).2
    · have hold := hs.engine c (hother c hc hcg)
      refine ⟨?_, ?_⟩ <;> rw [group_def, h, Table8.get_set_ne _ _ hcg]
      · exact hold.begun
      · exact hold.last

/-- One group is replaced whose epoch stays as it is. -/
theorem EpochKept.same (hs : EpochKept s D) {g : GroupNum} {y : Group} (h : t.groups = s.groups.set g y)
    (hengine : t.engine = s.engine) (hxy : (s.group g).outgoing = [] → y.outgoing = [])
    (hbegun : y.progress.begun = (s.group g).progress.begun) (hy : Group.EpochLawful y (g ∈ D)) : EpochKept t D := by
  refine hs.set h (fun _ _ => id) hy (fun c hc _ => hengine ▸ hc) (fun c hc hcg => ?_)
  have hold := hs.engine c (hengine ▸ hc)
  subst hcg
  exact ⟨hbegun ▸ hold.begun, fun hend => hxy (hold.last hend)⟩

/-- A group that is not the engine's is replaced. -/
theorem EpochKept.setOther (hs : EpochKept s D) {g : GroupNum} {y : Group} (h : t.groups = s.groups.set g y)
    (hengine : t.engine = s.engine) (hnot : s.engine.map (·.group) ≠ some g) (hE : ∀ k, k ≠ g → k ∈ E → k ∈ D)
    (hy : Group.EpochLawful y (g ∈ E)) : EpochKept t E :=
  hs.set h hE hy (fun c hc _ => hengine ▸ hc) (fun c hc hcg => absurd (by rw [← hengine, hc, ← hcg]; rfl) hnot)

theorem EpochKept.reconsider (hs : EpochKept s D) : EpochKept s.reconsiderUnreported D := by
  obtain ⟨-, heq⟩ | ⟨tk, g, k, -, -, -, heq⟩ := s.reconsiderUnreported_cases <;> rw [heq]
  · exact hs
  · exact hs.same rfl rfl id rfl (hs.group g)

theorem epochKept_initial (hg : t.groups = .fill Group.initial) (hengine : t.engine = none) : EpochKept t ∅ := by
  refine ⟨fun g => ?_, fun c hc => by rw [hengine] at hc; cases hc⟩
  rw [group_def, hg, Table8.get_fill]
  exact ⟨fun _ => rfl, fun _ => ⟨rfl, rfl, rfl⟩, fun _ => rfl, fun _ _ => rfl, False.elim⟩

/-- A take leads to the completion only with nothing left to write, and to a last step only with the outgoing list written or
dropped (R58). -/
theorem takeOutcome_last {x : Group} {kind : DrainKind} {step : Step} (h : x.takeOutcome = .step kind step)
    (hx : x.progress.abandonPending = true ∨ x.faultStep = some .finish → x.outgoing = [])
    (hend : step = .finish ∨ kind = .abandonEnd) : x.outgoing = [] := by
  have hfirst : x.firstStep ≠ .step kind step := by
    intro hf
    unfold Group.firstStep at hf
    split at hf
    · cases hf; exact hend.elim Step.noConfusion DrainKind.noConfusion
    · split at hf
      · cases hf
      · cases hf; exact hend.elim Step.noConfusion DrainKind.noConfusion
  unfold Group.takeOutcome at h
  split at h
  · next hp => exact hx (.inl hp)
  · split at h
    · exact absurd h hfirst
    · split at h
      · next st hst =>
        cases h
        exact hx (.inr (hst.trans (congrArg some (hend.resolve_right DrainKind.noConfusion))))
      · exact absurd h hfirst

theorem outgoing_of_completes {x : Group} (h : x.takeOutcome = .completes) : x.outgoing = [] := by
  by_contra hne
  obtain ⟨kind, step, hstep⟩ := takeOutcome_of_outgoing hne
  rw [h] at hstep
  cases hstep

/-- The state changes between states of the same kind, or to a busy one. -/
theorem EpochPlace.state {st st' : GroupState} {out : List Entry} {b p : Bool} {f : Option Step} {a a' : Prop}
    (h : EpochPlace st out b p f a) (hidle : st' = .off ∨ st' = .opened ∨ st' = .armed → out = [])
    (hcalm : st'.busy = false → b = false ∧ p = false ∧ f = none) (ha : a' → a) : EpochPlace st' out b p f a' :=
  ⟨hidle, hcalm, h.written, h.fresh, fun ha' => h.completed (ha ha')⟩

/-- An epoch that has ended, with nothing left to write. -/
theorem epochPlace_over {st : GroupState} {out : List Entry} {a : Prop} (h : out = []) : EpochPlace st out false false none a :=
  ⟨fun _ => h, fun _ => ⟨rfl, rfl, rfl⟩, fun _ => h, fun _ _ => rfl, fun _ => ⟨h, rfl, rfl, rfl⟩⟩

/-- An epoch that is sealed and not begun. -/
theorem epochPlace_sealed {st : GroupState} {out : List Entry} {b p : Bool} {f : Option Step} {a : Prop}
    (h : b = false ∧ p = false ∧ f = none) (hst : ¬ (st = .off ∨ st = .opened ∨ st = .armed)) (ha : ¬ a) :
    EpochPlace st out b p f a := by
  obtain ⟨rfl, rfl, rfl⟩ := h
  exact ⟨fun hi => absurd hi hst, fun _ => ⟨rfl, rfl, rfl⟩, fun hw => by simp at hw, fun _ _ => rfl, fun ha' => absurd ha' ha⟩

theorem QueueKept.not_owner_of_not_busy (hq : QueueKept s D) {g : GroupNum} (h : (s.group g).state.busy = false) :
    s.engine.map (·.group) ≠ some g :=
  hq.not_owner (fun hd => by rw [hd] at h; cases h)

theorem move_keeps_epochs (s t : State) (D E : Set GroupNum) (h : Move (s, D) (t, E)) (hq : QueueKept s D) (hs : EpochKept s D) :
    EpochKept t E := by
  cases h with
  | outside | timebase | records | enableRing | watch | resetting | activate | window | arbiter | grantInitiator
  | pass | answered | freed | holdForRoom | holdForMode | countHold | withdrawInitiator | beginFlush =>
    exact hs.of_groups rfl hs.engine
  | stepStatus _ _ c st hc =>
    exact hs.of_groups rfl (fun d hd => by cases hd; exact ⟨(hs.engine c hc).begun, (hs.engine c hc).last⟩)
  | nextStep _ _ c step q hc hstep =>
    refine hs.of_groups rfl (fun d hd => ?_)
    cases hd
    exact ⟨(hs.engine c hc).begun, fun hend => hstep (hend.resolve_right DrainKind.noConfusion)⟩
  | bypassAtOnce =>
    have hsame : ∀ g, (s.disarmAll.group g).outgoing = (s.group g).outgoing ∧ (s.disarmAll.group g).progress = (s.group g).progress := by
      intro g
      rw [disarmAll, group_def, Table8.get_map]
      split <;> exact ⟨rfl, rfl⟩
    refine ⟨fun g => ?_, fun c hc => ⟨?_, ?_⟩⟩
    · rw [show (((s.setMode .bypass).disarmAll).group g) = s.disarmAll.group g from rfl, disarmAll, group_def, Table8.get_map]
      split
      · next ha =>
        exact (hs.group g).state (fun _ => (hs.group g).idle (.inr (.inr ha))) (fun _ => (hs.group g).calm (by rw [group_def, ha]; rfl)) id
      · exact hs.group g
    · exact (congrArg (·.begun) (hsame c.group).2).trans (hs.engine c hc).begun
    · exact fun hend => (hsame c.group).1.trans ((hs.engine c hc).last hend)
  | completeFlush =>
    obtain ⟨-, heq⟩ | ⟨_, _, -, heq⟩ := (s.setMode .bypass).passHeld_cases <;> rw [completeFlush, heq]
    · exact hs.of_groups rfl hs.engine
    · exact hs.of_groups rfl hs.engine
  | completeSoftReset =>
    obtain ⟨q, -, heq⟩ := s.completeSoftReset_cases
    rw [heq]
    exact epochKept_initial rfl rfl
  | blocksReset => exact epochKept_initial rfl rfl
  | tune _ _ g y h | place _ _ g y _ _ _ _ _ _ _ h | merge _ _ g y _ _ _ _ h =>
    exact hs.same rfl rfl (fun ho => h.outgoing.trans ho) h.begun (epochLawful_of_alike h (hs.group g))
  | reopen _ _ g y st hx hst h =>
    have hx' : (s.group g).state.busy = false := by rcases hx with hx | hx <;> rw [hx] <;> rfl
    exact hs.setOther rfl rfl (hq.not_owner_of_not_busy hx') (fun _ _ => id) (epochLawful_of_alike h
      ((hs.group g).state (fun _ => (hs.group g).idle (.inr hx)) (fun _ => (hs.group g).calm hx') id))
  | turnOff _ _ g y hx _ _ _ h =>
    have hx' : (s.group g).state.busy = false := by rcases hx with hx | hx <;> rw [hx] <;> rfl
    exact hs.setOther rfl rfl (hq.not_owner_of_not_busy hx') (fun _ _ => id) (epochLawful_of_alike h
      ((hs.group g).state (fun _ => (hs.group g).idle (.inr hx)) (fun _ => (hs.group g).calm hx') id))
  | sealAtPoint _ _ g y hx hmode h =>
    have hx' : (s.group g).state.busy = false := by rw [hx]; rfl
    exact hs.setOther rfl rfl (hq.not_owner_of_not_busy hx') (fun _ _ => id) (epochLawful_of_alike h
      (epochPlace_sealed ((hs.group g).calm hx') (by rintro (hi | hi | hi) <;> cases hi)
        ((hq.placed g).not_awaited (by rw [hx]; exact GroupState.noConfusion) (by rw [hx]; exact GroupState.noConfusion))))
  | commit _ _ g y hx hmode h =>
    have hx' : (s.group g).state.busy = false := by rw [hx]; rfl
    exact hs.setOther rfl rfl (hq.not_owner_of_not_busy hx') (fun _ _ => id) (epochLawful_of_alike h
      ((hs.group g).state (by rintro (hi | hi | hi) <;> cases hi) (fun hb => by cases hb) id))
  | sealAndQueue _ _ g y hx hmode h =>
    have hover : (s.group g).progress.begun = false ∧ (s.group g).progress.abandonPending = false ∧ (s.group g).faultStep = none := by
      rcases hx with hx | hx | hx
      · exact (hs.group g).calm (by rw [hx]; rfl)
      · exact (hs.group g).calm (by rw [hx]; rfl)
      · exact ((hs.group g).completed hx).2
    have hnot : s.engine.map (·.group) ≠ some g := by
      rcases hx with hx | hx | hx
      · exact hq.not_owner_of_not_busy (by rw [hx]; rfl)
      · exact hq.not_owner_of_not_busy (by rw [hx]; rfl)
      · exact ((hq.placed g).awaited hx).2
    exact hs.setOther rfl rfl hnot (fun _ _ hk => hk.1) (epochLawful_of_alike h
      (epochPlace_sealed hover (by rintro (hi | hi | hi) <;> cases hi) (fun ha => ha.2 rfl)))
  | requeue _ g y hx h =>
    exact hs.same rfl rfl (fun ho => h.outgoing.trans ho) h.begun (epochLawful_of_alike h
      ((hs.group g).state (by rintro (hi | hi | hi) <;> cases hi) (fun hb => by cases hb) id))
  | pendAbandon _ g y hx hempty h =>
    exact hs.setOther rfl rfl (hq.not_owner (by rw [hx]; exact GroupState.noConfusion)) (fun _ _ => id) (epochLawful_of_alike h
      ⟨fun _ => hempty, fun hb => (by cases hb), fun _ => hempty, fun _ hp => (by cases hp), False.elim⟩)
  | closeAbandon _ g y hx hempty h =>
    exact hs.setOther rfl rfl (hq.not_owner (by rw [hx]; exact GroupState.noConfusion)) (fun _ hne hk => absurd hk hne)
      (epochLawful_of_alike h (epochPlace_over hempty))
  | returns _ _ g y st hx hst h =>
    obtain ⟨hempty, hover⟩ := (hs.group g).completed hx
    exact hs.setOther rfl rfl ((hq.placed g).awaited hx).2 (fun _ _ hk => hk.1) (epochLawful_of_alike h
      ((hs.group g).state (fun _ => hempty) (fun _ => hover) (fun hk => hk.1)))
  | takeStep _ _ g rest y kind step q htake hqueue hout h =>
    have hqueued := (hq.placed g).queued.mp (by simp [hqueue])
    have hnot : g ∉ D := (hq.placed g).not_awaited (by rw [hqueued]; exact GroupState.noConfusion) (by rw [hqueued]; exact GroupState.noConfusion)
    refine hs.set rfl (fun _ _ => id) (epochLawful_of_alike h ?_) (fun c hc hne => by cases hc; exact absurd rfl hne) (fun c hc _ => ?_)
    · exact ⟨(by rintro (hi | hi | hi) <;> cases hi), fun hb => (by cases hb), (hs.group g).written, fun hb => (by cases hb), fun ha => absurd ha hnot⟩
    · cases hc
      have hlast := takeOutcome_last hout (hs.group g).written
      exact ⟨h.begun, fun hend => h.outgoing.trans (hlast hend)⟩
  | takeDone _ _ g rest y htake hqueue hout h =>
    have hempty := outgoing_of_completes hout
    exact hs.setOther rfl rfl (by rw [engine_of_canTake htake]; exact nofun) (fun _ hne hk => hk.resolve_left hne)
      (epochLawful_of_alike h (epochPlace_over hempty))
  | finish _ _ c y hc hlast h =>
    have hempty : (s.group c.group).outgoing = [] := by
      rcases hlast with hl | hl | hl
      · exact (hs.engine c hc).last (.inl hl)
      · exact (hs.engine c hc).last (.inr hl)
      · exact hl
    exact hs.set rfl (fun _ hne hk => hk.resolve_left hne) (epochLawful_of_alike h (epochPlace_over hempty))
      (fun _ hd => by cases hd) (fun _ hd => by cases hd)
  | stall _ _ c y hc h =>
    have hg := hs.group c.group
    have hc' := hs.engine c hc
    have hnot : c.group ∉ D := fun ha => ((hq.placed c.group).awaited ha).2 (by rw [hc]; rfl)
    refine hs.set rfl (fun _ _ => id) (epochLawful_of_alike h ?_) (fun _ hd => by cases hd) (fun _ hd => by cases hd)
    refine ⟨(by rintro (hi | hi | hi) <;> cases hi), fun hb => (by cases hb), ?_, fun hb => ?_, fun ha => absurd ha hnot⟩
    · rintro (hp | hf)
      · exact hg.written (.inl hp)
      · exact hc'.last (.inl (Option.some.inj hf))
    · exact absurd (hc'.begun.symm.trans hb) Bool.noConfusion
  | reconsider => exact hs.reconsider
  | release _ _ g y h =>
    have hkept : EpochKept (s.setGroup g y) D := by
      rcases h with h | h
      · exact hs.same rfl rfl (fun ho => h.outgoing.trans ho) h.begun (epochLawful_of_alike h (hs.group g))
      · have htail : ∀ {l : List Entry}, l = [] → l.tail = [] := fun hl => by rw [hl]; rfl
        have hg := hs.group g
        exact hs.same rfl rfl (fun ho => h.outgoing.trans (htail ho)) h.begun (epochLawful_of_alike h
          ⟨fun hi => htail (hg.idle hi), hg.calm, fun hw => htail (hg.written hw), hg.fresh,
            fun ha => ⟨htail (hg.completed ha).1, (hg.completed ha).2⟩⟩)
    exact hkept.reconsider
  | configure _ _ g y quota m fs hx hquota hroom hmarker hfs h =>
    have hx' : (s.group g).state.busy = false := by rcases hx with hx | hx <;> rw [hx] <;> rfl
    obtain ⟨hbegun, hpending, hfault⟩ := (hs.group g).calm hx'
    have hempty := (hs.group g).idle (hx.imp_right .inl)
    have hfs' : fs = none := hfs.elim (·.trans hfault) id
    have hkept : EpochKept (s.setGroup g y) D := by
      refine hs.setOther rfl rfl (hq.not_owner_of_not_busy hx') (fun _ _ => id) (epochLawful_of_alike h ?_)
      exact ⟨fun _ => hempty, fun _ => ⟨hbegun, hpending, hfs'⟩, fun _ => hempty, fun _ _ => hfs', fun _ => ⟨hempty, hbegun, hpending, hfs'⟩⟩
    exact hkept.reconsider

/-! ## The words of every group -/

/-- What O10 keeps of the staged words, the quotas and the held write. -/
structure WordKept (s : State) (D : Set GroupNum) : Prop where
  words : ∀ g, ∀ e ∈ (s.group g).entries, s.stagedFor g e.addr = true
  quota : ∀ g, (s.group g).state ≠ .off → 1 ≤ (s.group g).quota
  room : ∀ t g n, s.port = .held t g .room n → s.mode = .active ∧ s.hasRoom g = false ∧ s.stagedFor g t.tx.addr = true
  mode : ∀ t g n, s.port = .held t g .mode n → s.mode = .quiescing

theorem wordKept_iff : WordKept s D ↔ WordLaw s := by
  constructor
  · rintro ⟨hwords, hquota, hroom, hmode⟩
    refine ⟨hwords, hquota, ?_⟩
    unfold heldLawful
    split
    · next hp =>
      obtain ⟨hm, hr, hst⟩ := hroom _ _ _ hp
      simp [hm, hr, hst]
    · next hp => simp [hmode _ _ _ hp]
    all_goals rfl
  · rintro ⟨hwords, hquota, hheld⟩
    refine ⟨hwords, hquota, fun t g n hp => ?_, fun t g n hp => ?_⟩ <;> rw [heldLawful, hp] at hheld
    · simpa [and_assoc] using hheld
    · simpa using hheld

/-- Windows, groups and mode stay, and the write held is the same, or none. -/
theorem WordKept.of_groups (hs : WordKept s D) (hw : t.windows = s.windows) (hg : t.groups = s.groups) (hm : t.mode = s.mode)
    (hport : ∀ k g r n, t.port = .held k g r n → ∃ m, s.port = .held k g r m) : WordKept t E := by
  have hstaged : ∀ g a, t.stagedFor g a = s.stagedFor g a := fun g a => by rw [stagedFor, stagedFor, hw]
  have hroom : ∀ g, t.hasRoom g = s.hasRoom g := fun g => by
    unfold hasRoom freeCount poolUsed
    rw [group_def, group_def, hg]
  refine ⟨fun g e he => ?_, fun g hon => ?_, fun k g n hp => ?_, fun k g n hp => ?_⟩
  · rw [hstaged]
    exact hs.words g e (by rwa [group_def, hg] at he)
  · rw [group_def, hg] at hon ⊢
    exact hs.quota g hon
  · obtain ⟨m, hp'⟩ := hport k g .room n hp
    rw [hm, hroom, hstaged]
    exact hs.room k g m hp'
  · obtain ⟨m, hp'⟩ := hport k g .mode n hp
    rw [hm]
    exact hs.mode k g m hp'

/-- The same, with no write held. -/
theorem WordKept.of_not_held (hs : WordKept s D) (hw : t.windows = s.windows) (hg : t.groups = s.groups)
    (hport : ∀ k g r n, t.port ≠ .held k g r n) : WordKept t E := by
  have hstaged : ∀ g a, t.stagedFor g a = s.stagedFor g a := fun g a => by rw [stagedFor, stagedFor, hw]
  refine ⟨fun g e he => ?_, fun g hon => ?_, fun k g n hp => absurd hp (hport k g _ n), fun k g n hp => absurd hp (hport k g _ n)⟩
  · rw [hstaged]
    exact hs.words g e (by rwa [group_def, hg] at he)
  · rw [group_def, hg] at hon ⊢
    exact hs.quota g hon

/-- Room depends on the occupancies and the group's quota. -/
theorem hasRoom_of_set {g : GroupNum} {y : Group} (h : t.groups = s.groups.set g y) (hocc : y.occupancy = (s.group g).occupancy)
    (hquota : y.quota = (s.group g).quota) (k : GroupNum) : t.hasRoom k = s.hasRoom k := by
  have hpool : t.poolUsed = s.poolUsed := by
    have hsum := s.poolUsed_setGroup g y
    have hsame : t.poolUsed = (s.setGroup g y).poolUsed := by simp only [poolUsed, h, setGroup_groups]
    omega
  have hk : (t.group k).occupancy = (s.group k).occupancy ∧ (t.group k).quota = (s.group k).quota := by
    rw [group_def, h, Table8.get_set]
    split
    · next heq => exact heq ▸ ⟨hocc, hquota⟩
    · exact ⟨rfl, rfl⟩
  unfold hasRoom freeCount
  rw [hk.1, hk.2, hpool]

/-- The two parts of the law that do not look at the held write. -/
theorem WordKept.words_set (hs : WordKept s D) {g : GroupNum} {y : Group} (hw : t.windows = s.windows) (h : t.groups = s.groups.set g y)
    (hwords : ∀ e ∈ y.entries, s.stagedFor g e.addr = true) (hquota : y.state ≠ .off → 1 ≤ y.quota) :
    (∀ k, ∀ e ∈ (t.group k).entries, t.stagedFor k e.addr = true) ∧ ∀ k, (t.group k).state ≠ .off → 1 ≤ (t.group k).quota := by
  have hstaged : ∀ k a, t.stagedFor k a = s.stagedFor k a := fun k a => by rw [stagedFor, stagedFor, hw]
  refine ⟨fun k e he => ?_, fun k hon => ?_⟩
  · rw [hstaged]
    rw [group_def, h, Table8.get_set] at he
    split at he
    · next heq => exact heq ▸ hwords e he
    · exact hs.words k e he
  · rw [group_def, h, Table8.get_set] at hon ⊢
    split at hon
    · next heq => rw [if_pos heq]; exact hquota hon
    · next hne => rw [if_neg hne]; exact hs.quota k hon

/-- One group is replaced by one that is as full. -/
theorem WordKept.set (hs : WordKept s D) {g : GroupNum} {y : Group} (hw : t.windows = s.windows) (hm : t.mode = s.mode)
    (hport : t.port = s.port) (h : t.groups = s.groups.set g y) (hwords : ∀ e ∈ y.entries, s.stagedFor g e.addr = true)
    (hocc : y.occupancy = (s.group g).occupancy) (hquota : y.quota = (s.group g).quota)
    (hon : y.state ≠ .off → (s.group g).state ≠ .off) : WordKept t E := by
  obtain ⟨hwords', hquota'⟩ := hs.words_set hw h hwords (fun ho => hquota ▸ hs.quota g (hon ho))
  have hstaged : ∀ k a, t.stagedFor k a = s.stagedFor k a := fun k a => by rw [stagedFor, stagedFor, hw]
  refine ⟨hwords', hquota', fun k j n hp => ?_, fun k j n hp => ?_⟩
  · rw [hm, hasRoom_of_set h hocc hquota, hstaged]
    exact hs.room k j n (hport ▸ hp)
  · rw [hm]
    exact hs.mode k j n (hport ▸ hp)

theorem Group.Alike.entries {x y : Group} (h : x.Alike y) : y.entries = x.entries := by
  rw [Group.entries, Group.entries, h.filling, h.outgoing]

/-- One group is replaced by one with the same lists. -/
theorem WordKept.same (hs : WordKept s D) {g : GroupNum} {x y : Group} (hw : t.windows = s.windows) (hm : t.mode = s.mode)
    (hport : t.port = s.port) (h : t.groups = s.groups.set g y) (hxy : x.Alike y) (hentries : x.entries = (s.group g).entries)
    (hquota : x.quota = (s.group g).quota) (hon : x.state ≠ .off → (s.group g).state ≠ .off) : WordKept t E := by
  have hy : y.entries = (s.group g).entries := (Group.Alike.entries hxy).trans hentries
  refine hs.set hw hm hport h (fun e he => hs.words g e (hy ▸ he)) ?_ (hxy.quota.trans hquota) (fun ho => hon (hxy.state ▸ ho))
  have hlen := congrArg List.length hy
  simpa [Group.entries, Group.occupancy] using hlen

/-- A release or a configuration, after which the held write is reconsidered (R20). -/
theorem wordKept_reconsider (hwords : ∀ g, ∀ e ∈ (s.group g).entries, s.stagedFor g e.addr = true)
    (hquota : ∀ g, (s.group g).state ≠ .off → 1 ≤ (s.group g).quota)
    (hroom : ∀ t g n, s.port = .held t g .room n → s.mode = .active ∧ s.stagedFor g t.tx.addr = true)
    (hmode : ∀ t g n, s.port = .held t g .mode n → s.mode = .quiescing) : WordKept s.reconsiderUnreported D := by
  obtain ⟨hcannot, heq⟩ | ⟨tk, g, k, hport, hm, hr, heq⟩ := s.reconsiderUnreported_cases <;> rw [heq]
  · refine ⟨hwords, hquota, fun t g n hp => ?_, hmode⟩
    obtain ⟨hact, hst⟩ := hroom t g n hp
    simp only [canPlaceHeld, hp, hact, beq_self_eq_true, Bool.true_and] at hcannot
    exact ⟨hact, hcannot, hst⟩
  · have hstaged := (hroom tk g k hport).2
    have hset : ∀ j, ∃ n, (s.groups.set g (placed (s.group g) (allocateIn (s.group g).filling tk.tx))).get j =
        { s.group j with filling := if j = g then allocateIn (s.group g).filling tk.tx else (s.group j).filling, lateCount := n } := by
      intro j
      rw [Table8.get_set]
      split
      · next h => subst h; exact ⟨_, rfl⟩
      · exact ⟨_, rfl⟩
    refine ⟨fun j e he => ?_, fun j hon => ?_, fun _ _ _ hp => (by cases hp), fun _ _ _ hp => (by cases hp)⟩
    · obtain ⟨n, hj⟩ := hset j
      rw [group_def, hj] at he
      by_cases hjg : j = g
      · subst hjg
        rw [Group.entries, if_pos rfl, List.mem_append, allocateIn, List.mem_append, List.mem_singleton] at he
        rcases he with (he | rfl) | he
        · exact hwords j e (List.mem_append_left _ he)
        · exact hstaged
        · exact hwords j e (List.mem_append_right _ he)
      · rw [if_neg hjg] at he
        exact hwords j e he
    · obtain ⟨n, hj⟩ := hset j
      rw [group_def, hj] at hon ⊢
      exact hquota j hon

theorem WordKept.reconsider (hs : WordKept s D) : WordKept s.reconsiderUnreported D :=
  wordKept_reconsider hs.words hs.quota (fun t g n hp => ⟨(hs.room t g n hp).1, (hs.room t g n hp).2.2⟩) hs.mode

/-- One group is replaced, and the held write reconsidered. -/
theorem WordKept.set_reconsider (hs : WordKept s D) {g : GroupNum} {y : Group} (hwords : y.entries ⊆ (s.group g).entries)
    (hquota : y.state ≠ .off → 1 ≤ y.quota) : WordKept (s.setGroup g y).reconsiderUnreported D := by
  obtain ⟨hwords', hquota'⟩ := hs.words_set (t := s.setGroup g y) rfl rfl (fun e he => hs.words g e (hwords he)) hquota
  exact wordKept_reconsider hwords' hquota' (fun t k n hp => ⟨(hs.room t k n hp).1, (hs.room t k n hp).2.2⟩) hs.mode

theorem wordKept_initial (hg : t.groups = .fill Group.initial) (hport : ∀ k g r n, t.port ≠ .held k g r n) : WordKept t E := by
  refine ⟨fun g e he => ?_, fun g hon => ?_, fun k g n hp => absurd hp (hport k g _ n), fun k g n hp => absurd hp (hport k g _ n)⟩
  · rw [group_def, hg, Table8.get_fill] at he
    cases he
  · rw [group_def, hg, Table8.get_fill] at hon
    exact absurd rfl hon

/-- A window that WINDOW SET may write holds no word staged for a group in service (R97). -/
theorem stagedFor_window {i : WindowNum} {w : Window} {g : GroupNum} {a : Addr} (haccepts : s.acceptsWindowSet (s.windows.get i) = true)
    (hmode : s.mode = .active) (hon : (s.group g).state ≠ .off) (h : s.stagedFor g a = true) :
    State.stagedFor { s with windows := s.windows.set i w } g a = true := by
  obtain ⟨j, hj⟩ := (Table8.any_toList_iff _ _).mp h
  simp only [Bool.and_eq_true, beq_iff_eq] at hj
  obtain ⟨⟨hkind, hgroup⟩, hmatch⟩ := hj
  have hji : j ≠ i := by
    rintro rfl
    simp only [acceptsWindowSet, hmode, hkind, hgroup, Bool.or_eq_true, Bool.not_eq_true', beq_iff_eq, hon, or_false,
      reduceCtorEq] at haccepts
    rw [Window.matchesAddr, haccepts] at hmatch
    cases hmatch
  refine (Table8.any_toList_iff _ _).mpr ⟨j, ?_⟩
  rw [show State.windows { s with windows := s.windows.set i w } = s.windows.set i w from rfl, Table8.get_set_ne _ _ hji]
  simp [hkind, hgroup, hmatch]

/-- A group with an entry is in service. -/
theorem on_of_entry (hw : QuotaKept s D) {g : GroupNum} {e : Entry} (he : e ∈ (s.group g).entries) : (s.group g).state ≠ .off := by
  intro hoff
  have hempty := (hw g).off hoff
  simp only [Group.occupancy, Nat.add_eq_zero_iff, List.length_eq_zero_iff] at hempty
  rw [Group.entries, hempty.1, hempty.2] at he
  cases he

theorem WordKept.window (hs : WordKept s D) (hw : QuotaKept s D) (hb : BypassKept s D) {i : WindowNum} {w : Window}
    (haccepts : s.acceptsWindowSet (s.windows.get i) = true) : WordKept { s with windows := s.windows.set i w } D := by
  have hmode : s.mode = .active ∨ s.mode = .bypass := by
    cases hm : s.mode with
    | active => exact .inl rfl
    | bypass => exact .inr rfl
    | quiescing | resetting => rw [acceptsWindowSet, hm] at haccepts; cases haccepts
  refine ⟨fun g e he => ?_, hs.quota, fun t g n hp => ?_, hs.mode⟩
  · rcases hmode with hm | hm
    · exact stagedFor_window haccepts hm (on_of_entry hw he) (hs.words g e he)
    · have hrest := hb hm g
      rw [Group.entries, show (State.group { s with windows := s.windows.set i w } g) = s.group g from rfl, hrest.filling, hrest.outgoing] at he
      cases he
  · obtain ⟨hact, hroom, hstaged⟩ := hs.room t g n hp
    have hport : s.port = .held t g .room n := hp
    exact ⟨hact, hroom, stagedFor_window haccepts hact ((hw g).held (by simp [hport, Port.heldFor])) hstaged⟩

/-- No write is held while ACTIVE can give way to BYPASS at once: with an empty store every group in service has room. -/
theorem not_held_of_bypassAtOnce (hs : WordKept s D) (hw : QuotaKept s D) (h : s.bypassAtOnce = true) (hmode : s.mode = .active)
    (k : Taken) (g : GroupNum) (r : HoldReason) (n : Nat) : s.port ≠ .held k g r n := by
  intro hp
  cases r with
  | mode => rw [hs.mode k g n hp] at hmode; cases hmode
  | room =>
    have hempty : ∀ x ∈ s.groups.toList, Group.occupancy x = 0 := by
      intro x hx
      have hlists := List.all_eq_true.mp (Bool.and_eq_true_iff.mp h).1 x hx
      simp only [Bool.and_eq_true, List.isEmpty_iff] at hlists
      rw [Group.occupancy, hlists.1, hlists.2]
      rfl
    have hpool : s.poolUsed = 0 := List.sum_eq_zero (fun n hn => by
      obtain ⟨x, hx, rfl⟩ := List.mem_map.mp hn
      exact hempty x hx)
    have hquota := hs.quota g ((hw g).held (by simp [hp, Port.heldFor]))
    have hroom := (hs.room k g n hp).2.1
    have hocc : (s.group g).occupancy = 0 := hempty _ (Table8.get_mem_toList _ g)
    simp only [hasRoom, freeCount, hpool, hocc] at hroom
    rw [Bool.and_eq_false_iff, decide_eq_false_iff_not, decide_eq_false_iff_not] at hroom
    rcases hroom with hr | hr
    · exact hr hquota
    · exact hr (by decide)

theorem WordKept.not_held_of_bypass (hs : WordKept s D) (h : s.mode = .bypass) (k : Taken) (g : GroupNum) (r : HoldReason)
    (n : Nat) : s.port ≠ .held k g r n := by
  intro hp
  cases r with
  | mode => rw [hs.mode k g n hp] at h; cases h
  | room => rw [(hs.room k g n hp).1] at h; cases h

/-- What a sealed group held in its filling list it holds in its outgoing list. -/
theorem WordKept.sealed (hs : WordKept s D) {g : GroupNum} {y : Group} {st : GroupState} (hw : t.windows = s.windows)
    (hm : t.mode = s.mode) (hport : t.port = s.port) (h : t.groups = s.groups.set g y)
    (hy : { (s.group g).sealLists with state := st }.Alike y) (hempty : (s.group g).outgoing = [])
    (hon : (s.group g).state ≠ .off) : WordKept t E := by
  have hentries : y.entries = (s.group g).filling := Group.Alike.entries hy
  refine hs.set hw hm hport h (fun e he => hs.words g e (List.mem_append_left _ (hentries ▸ he))) ?_ hy.quota (fun _ => hon)
  have hlen := congrArg List.length hentries
  simpa [Group.entries, Group.occupancy, hempty] using hlen

theorem on_of_queued (hq : QueueKept s D) {g : GroupNum} (h : g ∈ s.commitQueue) : (s.group g).state ≠ .off := by
  rw [(hq.placed g).queued.mp h]
  exact GroupState.noConfusion

theorem on_of_owner (hq : QueueKept s D) {c : DrainContext} (h : s.engine = some c) : (s.group c.group).state ≠ .off := by
  rw [(hq.placed c.group).owned (by rw [h]; rfl)]
  exact GroupState.noConfusion

theorem mem_of_addrs {l m : List Entry} (h : l.map (·.addr) = m.map (·.addr)) {e : Entry} (he : e ∈ l) : ∃ f ∈ m, f.addr = e.addr := by
  have hmem : e.addr ∈ m.map (·.addr) := h ▸ List.mem_map_of_mem he
  exact List.mem_map.mp hmem

theorem move_keeps_words (s t : State) (D E : Set GroupNum) (h : Move (s, D) (t, E)) (hq : QueueKept s D) (hw : QuotaKept s D)
    (hb : BypassKept s D) (he : EpochKept s D) (hs : WordKept s D) : WordKept t E := by
  cases h with
  | outside | timebase | records | enableRing | watch | arbiter | grantInitiator | stepStatus | nextStep =>
    exact hs.of_groups rfl rfl rfl (fun k g r n hp => ⟨n, hp⟩)
  | pass | answered | freed | withdrawInitiator => exact hs.of_not_held rfl rfl (fun _ _ _ _ hp => by cases hp)
  | resetting _ _ h => exact hs.of_not_held rfl rfl h
  | activate _ _ h => exact hs.of_not_held rfl rfl (hs.not_held_of_bypass h)
  | holdForRoom _ _ t g n _ _ hmode hroom hstaged =>
    exact ⟨hs.words, hs.quota, fun _ _ _ hp => by cases hp; exact ⟨hmode, hroom, hstaged⟩, fun _ _ _ hp => by cases hp⟩
  | holdForMode _ _ t g n _ _ hmode => exact ⟨hs.words, hs.quota, fun _ _ _ hp => (by cases hp), fun _ _ _ _ => hmode⟩
  | countHold _ _ t g r n m h =>
    exact hs.of_groups rfl rfl rfl (fun k j q l hp => by cases hp; exact ⟨n, h⟩)
  | beginFlush =>
    exact ⟨hs.words, hs.quota, fun k g n hp => absurd hp (holdForMode_ne_room s.port k g n), fun _ _ _ _ => rfl⟩
  | bypassAtOnce _ h hmode =>
    have hnot := not_held_of_bypassAtOnce hs hw h hmode
    have hsame : ∀ g, ((s.setMode .bypass).disarmAll.group g).entries = (s.group g).entries ∧
        ((s.setMode .bypass).disarmAll.group g).quota = (s.group g).quota ∧
        ((s.group g).state = .off → ((s.setMode .bypass).disarmAll.group g).state = .off) := by
      intro g
      rw [disarmAll, group_def, Table8.get_map]
      split
      · next ha => exact ⟨rfl, rfl, fun ho => absurd (ha.symm.trans ho) GroupState.noConfusion⟩
      · exact ⟨rfl, rfl, id⟩
    refine ⟨fun g e hg => hs.words g e ((hsame g).1 ▸ hg), fun g hon => ?_, fun k g n hp => absurd hp (hnot k g _ n),
      fun k g n hp => absurd hp (hnot k g _ n)⟩
    rw [(hsame g).2.1]
    exact hs.quota g (fun ho => hon ((hsame g).2.2 ho))
  | completeFlush =>
    obtain ⟨hnot, heq⟩ | ⟨_, _, -, heq⟩ := (s.setMode .bypass).passHeld_cases <;> rw [completeFlush, heq]
    · refine hs.of_not_held rfl rfl (fun k g r n hp => ?_)
      have hfor := hnot g
      rw [show (s.setMode .bypass).port = _ from hp] at hfor
      simp [Port.heldFor] at hfor
    · exact hs.of_not_held rfl rfl (fun _ _ _ _ hp => by cases hp)
  | completeSoftReset =>
    obtain ⟨q, -, heq⟩ := s.completeSoftReset_cases
    rw [heq]
    exact wordKept_initial rfl (fun k g r n => afterSoftReset_ne_held s.port k g r n)
  | blocksReset => exact wordKept_initial rfl (fun _ _ _ _ hp => by cases hp)
  | window _ _ i w haccepts _ => exact hs.window hw hb haccepts
  | tune _ _ g y h | finish _ _ c y _ _ h | closeAbandon _ g y _ _ h => exact hs.same rfl rfl rfl rfl h rfl rfl id
  | reopen _ _ g y _ hx _ h =>
    exact hs.same rfl rfl rfl rfl h rfl rfl (fun _ => by rcases hx with hx | hx <;> rw [hx] <;> exact GroupState.noConfusion)
  | commit _ _ g y hx _ h | requeue _ g y hx h | pendAbandon _ g y hx _ h =>
    exact hs.same rfl rfl rfl rfl h rfl rfl (fun _ => by rw [hx]; exact GroupState.noConfusion)
  | returns _ _ g y _ hx _ h => exact hs.same rfl rfl rfl rfl h rfl rfl (fun _ => (hq.placed g).on_of_awaited hx)
  | takeStep _ _ g rest y _ _ _ _ hqueue _ h | takeDone _ _ g rest y _ hqueue _ h =>
    exact hs.same rfl rfl rfl rfl h rfl rfl (fun _ => on_of_queued hq (by simp [hqueue]))
  | stall _ _ c y hc h => exact hs.same rfl rfl rfl rfl h rfl rfl (fun _ => on_of_owner hq hc)
  | turnOff _ _ g y _ _ _ _ h => exact hs.same rfl rfl rfl rfl h rfl rfl (fun ho => absurd rfl ho)
  | sealAtPoint _ _ g y hx _ h =>
    exact hs.sealed rfl rfl rfl rfl h ((he.group g).idle (.inr (.inr hx))) (by rw [hx]; exact GroupState.noConfusion)
  | sealAndQueue _ _ g y hx _ h =>
    have hpre : (s.group g).outgoing = [] ∧ (s.group g).state ≠ .off := by
      rcases hx with hx | hx | hx
      · exact ⟨(he.group g).idle (.inr (.inl hx)), by rw [hx]; exact GroupState.noConfusion⟩
      · exact ⟨(he.group g).idle (.inr (.inr hx)), by rw [hx]; exact GroupState.noConfusion⟩
      · exact ⟨((he.group g).completed hx).1, (hq.placed g).on_of_awaited hx⟩
    exact hs.sealed rfl rfl rfl rfl h hpre.1 hpre.2
  | place _ _ g y e hport _ hon _ _ hstaged h =>
    have hentries : y.entries = (s.group g).filling ++ [e] ++ (s.group g).outgoing := Group.Alike.entries h
    obtain ⟨hwords, hquota⟩ := hs.words_set (t := s.setGroup g y) rfl rfl (fun f hf => by
      rw [hentries, List.mem_append, List.mem_append, List.mem_singleton] at hf
      rcases hf with (hf | rfl) | hf
      · exact hs.words g f (List.mem_append_left _ hf)
      · exact hstaged
      · exact hs.words g f (List.mem_append_right _ hf)) (fun _ => h.quota ▸ hs.quota g hon)
    exact ⟨hwords, hquota, fun _ _ _ hp => absurd (hport.symm.trans hp) nofun, fun _ _ _ hp => absurd (hport.symm.trans hp) nofun⟩
  | merge _ _ g y l _ hon hl h =>
    have hentries : y.entries = l ++ (s.group g).outgoing := Group.Alike.entries h
    refine hs.set rfl rfl rfl rfl (fun e hf => ?_) ?_ h.quota (fun _ => hon)
    · rw [hentries, List.mem_append] at hf
      rcases hf with hf | hf
      · obtain ⟨f, hfm, hfa⟩ := mem_of_addrs hl hf
        exact hfa ▸ hs.words g f (List.mem_append_left _ hfm)
      · exact hs.words g e (List.mem_append_right _ hf)
    · rw [h.occupancy]
      simp only [Group.occupancy, ← List.length_map (as := l) (·.addr), hl, List.length_map]
  | reconsider => exact hs.reconsider
  | release _ _ g y h =>
    have hstate : y.state = (s.group g).state := h.elim (·.state) (·.state)
    have hquota : y.quota = (s.group g).quota := h.elim (·.quota) (·.quota)
    refine hs.set_reconsider ?_ (fun hon => hquota ▸ hs.quota g (hstate ▸ hon))
    rcases h with h | h <;> rw [Group.Alike.entries h]
    · exact List.append_subset.mpr ⟨fun e hf => List.mem_append_left _ (List.mem_of_mem_tail hf), fun e hf => List.mem_append_right _ hf⟩
    · exact List.append_subset.mpr ⟨fun e hf => List.mem_append_left _ hf, fun e hf => List.mem_append_right _ (List.mem_of_mem_tail hf)⟩
  | configure _ _ g y quota m fs hx hquota _ _ _ h =>
    have hentries : y.entries = (s.group g).entries := by rw [Group.Alike.entries h]; rfl
    exact hs.set_reconsider (hentries ▸ List.Subset.refl _) (fun _ => h.quota ▸ hquota)

/-- Two groups hold no word in common: their words lie in windows of their own (R5, R95). -/
theorem wordsApart_of_laws (hs : WordLaw s) (ha : AddressLaw s) : WordsApart s := by
  intro g h hgh e he f hf heq
  obtain ⟨i, hi⟩ := (Table8.any_toList_iff _ _).mp (hs.1 g e he)
  obtain ⟨j, hj⟩ := (Table8.any_toList_iff _ _).mp (hs.1 h f hf)
  simp only [Bool.and_eq_true, beq_iff_eq, Window.matchesAddr, inRange, decide_eq_true_eq] at hi hj
  obtain ⟨⟨-, hgi⟩, hei, hlo, hhi⟩ := hi
  obtain ⟨⟨-, hhj⟩, hej, hlo', hhi'⟩ := hj
  have hij : i ≠ j := fun hij => hgh (hgi.symm.trans ((congrArg (fun k => (s.windows.get k).group) hij).trans hhj))
  have hmeets := ha.1 i j hij hei
  rw [Window.meets, hej, Bool.true_and, rangesMeet, decide_eq_false_iff_not] at hmeets
  rw [← heq] at hlo' hhi'
  omega

end State

/-- Settles O10. -/
theorem stepKeepsListLaw : Obligations.StepKeepsListLaw := by
  constructor
  · intro s t hs h
    exact State.listKept_iff.mp (step_keeps State.ListKept State.move_keeps_lists (State.listKept_iff.mpr hs) h)
  · intro s t hqueue hbypass hquota haddress hepoch hword h
    have hkept := step_keeps
      (fun a D => State.QueueKept a D ∧ State.QuotaKept a D ∧ State.BypassKept a D ∧ State.EpochKept a D ∧ State.WordKept a D)
      (fun a b D E hm ⟨hq, hw, hb, he, hs⟩ =>
        ⟨State.move_keeps_queue a b D E hm hq, State.move_keeps_quota a b D E hm hw, State.move_keeps_bypass a b D E hm hq hw hb,
          State.move_keeps_epochs a b D E hm hq he, State.move_keeps_words a b D E hm hq hw hb he hs⟩)
      ⟨State.queueKept_empty_iff.mpr hqueue, State.quotaKept_iff.mpr hquota, State.bypassKept_iff.mpr hbypass,
        State.epochKept_empty_iff.mpr hepoch, State.wordKept_iff.mpr hword⟩ h
    obtain ⟨-, -, -, he, hs⟩ := hkept
    have hword' := State.wordKept_iff.mp hs
    exact ⟨State.epochKept_empty_iff.mp he, hword', State.wordsApart_of_laws hword' (stepKeepsAddressLaw s t hqueue haddress h)⟩

end Sys2Proof.Machine
end

section
/-! PROOF. The tier 1 statements: the front of the queue and the CLK period (O1, O2), the state after reset (O3, O4), and the
lanes of an overlaid word (O60). -/

namespace Sys2Proof.Machine

variable {s : State}

/-- A running device takes a happening, and what follows at once follows. -/
theorem happening_of_running (h : s.run = .running) (f : State → State) : happening s f = .next (s.settle (f s)) := by
  rw [happening, if_pos (by simp [State.runs, h])]

theorem runs_eq_false (h : s.run ≠ .running) : s.runs = false := by simp [State.runs, h]

/-- A device that does not run takes no happening (R176). -/
theorem happening_of_not_running (h : s.run ≠ .running) (f : State → State) : happening s f = .next s := by
  rw [happening, if_neg (by simp [runs_eq_false h])]

/-- Every row of the link is a frame event of the command of its code. -/
theorem command_of_linkRow {p : Byte × (FrameEvent → Instr)} (hp : p ∈ linkCommands) :
    ∃ c : Command, c.code = p.1 ∧ (commandForm p.1).isSome = true ∧ (∀ ev s, exec (p.2 ev) s = frameHappening s c ev) ∧ c.Moving := by
  have hrow : ∃ c : Command, c.code = p.1 ∧ (commandForm p.1).isSome = true ∧ ∀ ev, linkCommandOf (p.2 ev) = some (c, ev) := by
    simp only [linkCommands, List.mem_cons, List.not_mem_nil, or_false] at hp
    rcases hp with rfl | rfl | rfl | rfl | rfl | rfl | rfl | rfl | rfl | rfl | rfl | rfl | rfl | rfl | rfl | rfl | rfl | rfl |
      rfl | rfl | rfl | rfl <;> exact ⟨_, rfl, rfl, fun _ => rfl⟩
  obtain ⟨c, hcode, hform, hc⟩ := hrow
  exact ⟨c, hcode, hform, fun ev s => exec_of_linkCommand (hc ev) s, moving_of_linkCommand (hc .fall)⟩

/-- A row that is a happening does nothing on a device that does not run (R176). -/
theorem exec_of_not_running {i : Instr} (hi : (happeningOf i).isSome = true) (h : s.run ≠ .running) : exec i s = .next s := by
  obtain ⟨f, hf⟩ := Option.isSome_iff_exists.mp hi
  rw [exec_of_happening hf, happening_of_not_running h]

/-! ## The machine (O1, O2) -/

/-- Settles O1. -/
theorem stepRunsTheFrontCommand : Obligations.StepRunsTheFrontCommand := by
  intro c rest s h
  rw [step, h]

/-- Settles O2: a period without a tick leaves a settled device settled. -/
theorem emptyQueueIsOneClkPeriod : Obligations.EmptyQueueIsOneClkPeriod := by
  intro s hs hrun hempty
  have hstep : step s = .next (s.settle s.clkPeriod) := by
    rw [step, hempty]
    exact happening_of_running hrun _
  rw [hstep]
  unfold State.clkPeriod
  split
  · rw [State.settle_of_settled _ _ hs]
  · next hfrozen =>
    split
    · exact congrArg Host.Outcome.next (State.settle_of_settled _ _ ⟨hs.1.congr rfl rfl rfl rfl rfl rfl, hs.2⟩)
    · have htick : s.tickUnlessFrozen = s.tick := by rw [State.tickUnlessFrozen, if_neg hfrozen]
      exact (congrArg (fun a => Host.Outcome.next (s.settle a)) htick.symm).trans (happening_of_running hrun _).symm

/-! ## Resets (O3, O4) -/

/-- Settles O3. -/
theorem resetMeetsEveryLaw : Obligations.ResetMeetsEveryLaw := by
  have hsettled : Settled State.reset ∧ LinkReady State.reset ∧ PlaceLaw State.reset := by decide
  have hgroups : QueueLaw State.reset ∧ BypassLaw State.reset ∧ PoolLaw State.reset ∧ QuotaLaw State.reset := by decide
  have hwords : AddressLaw State.reset ∧ ListLaw State.reset ∧ EpochLaw State.reset ∧ WordLaw State.reset := by decide
  have hranges : RecordQueueLaw State.reset ∧ TimebaseLaw State.reset ∧ CountLaw State.reset := by decide
  obtain ⟨hsettled, hready, hplace⟩ := hsettled
  obtain ⟨hqueue, hbypass, hpool, hquota⟩ := hgroups
  obtain ⟨haddress, hlist, hepoch, hword⟩ := hwords
  obtain ⟨hrecords, htime, hcounts⟩ := hranges
  exact ⟨hsettled, hready, hqueue, hbypass, hpool, hquota, haddress, hlist, hrecords, htime, hcounts, hepoch, hword, hplace⟩

/-- A frame event of a device that does not run moves the select line alone (R187). -/
theorem frameHappening_of_not_running (h : s.run ≠ .running) (c : Command) (ev : FrameEvent) :
    frameHappening s c ev = .next (s.selectLine ev) := by
  rw [frameHappening, if_neg (by simp [runs_eq_false h])]

/-- The codes without a form are those of no command of the link. -/
theorem commandForm_isSome_iff (code : Byte) : (commandForm code).isSome = true ↔ ∃ p ∈ linkCommands, p.1 = code := by
  have hcodes : ∀ code : Byte, (commandForm code).isSome = (linkCommands.map (·.1)).contains code := by decide
  rw [hcodes, List.contains_iff_mem, List.mem_map]

/-- Settles O4. -/
theorem powerOnAndHardwareReset : Obligations.PowerOnAndHardwareReset := by
  refine ⟨fun s => ⟨fun runs => rfl, fun hrun => ?_, fun hrun => ?_, rfl⟩, fun s hrun => ?_⟩
  · refine ⟨s.resetFall, s.powerUp false, rfl, rfl, ?_⟩
    rw [State.resetFall, hrun]
    rfl
  · simp only [exec, execHardwareReset, State.resetFall]
    split
    · next h => exact absurd h hrun
    all_goals rfl
  · have hidle : ∀ {i : Instr}, (happeningOf i).isSome = true → exec i s = .next s := fun h => exec_of_not_running h hrun
    refine ⟨?_, fun tx => hidle rfl, fun ok data => hidle rfl, fun g => ⟨hidle rfl, hidle rfl⟩, fun bits => ?_, ?_, fun e => ?_, ?_, ?_⟩
    · intro c hc
      refine hidle ?_
      simp only [List.mem_cons, List.not_mem_nil, or_false] at hc
      rcases hc with rfl | rfl | rfl | rfl | rfl | rfl | rfl | rfl | rfl | rfl | rfl | rfl | rfl | rfl <;> rfl
    · simp only [exec, execFrameError, runs_eq_false hrun]
      split <;> rfl
    · rintro f hf
      have hframe : ∃ c : Command, ∀ ev, exec (f ev) s = frameHappening s c ev := by
        rcases hf with ⟨p, hp, rfl⟩ | ⟨code, hcode, rfl⟩
        · obtain ⟨c, -, -, hc, -⟩ := command_of_linkRow hp
          exact ⟨c, fun ev => hc ev s⟩
        · have hnone : ¬ (commandForm code).isSome = true := by
            rw [commandForm_isSome_iff]
            exact fun ⟨p, hp, heq⟩ => hcode p hp heq
          exact ⟨unknownCommandOf code, fun ev => by simp only [exec, execUnknownCommand, if_neg hnone]⟩
      obtain ⟨c, hc⟩ := hframe
      exact ⟨fun ps => (hc _).trans (frameHappening_of_not_running hrun c _), fun bits => (hc _).trans (frameHappening_of_not_running hrun c _),
        (hc _).trans (frameHappening_of_not_running hrun c _), (hc _).trans (frameHappening_of_not_running hrun c _)⟩
    · simp only [exec, execSyncEdge, runs_eq_false hrun]; rfl
    · simp only [exec, execFreezeBegin, runs_eq_false hrun]; rfl
    · simp only [exec, execFreezeEnd, runs_eq_false hrun]; rfl

/-! ## Overlays (O60) -/

/-- The mask of a lane set is all ones in the lanes of the set and all zeros in the others. -/
theorem laneMask_getLsbD (l : Lanes) (k i : Nat) (hk : k < 4) (hi : i < 8) : (laneMask l).getLsbD (8 * k + i) = l.getLsbD k := by
  have hall : ∀ l : Lanes, ∀ k < 4, ∀ i < 8, (laneMask l).getLsbD (8 * k + i) = l.getLsbD k := by decide
  exact hall l k hk i hi

/-- Settles O60. -/
theorem overlayTakesTheLanes : Obligations.OverlayTakesTheLanes := by
  intro old new l k hk
  apply BitVec.eq_of_getLsbD_eq
  intro i hi
  rw [BitVec.getLsbD_extractLsb', overlay, BitVec.getLsbD_or, BitVec.getLsbD_and, BitVec.getLsbD_and, BitVec.getLsbD_not,
    laneMask_getLsbD l k i hk hi]
  by_cases hl : l.getLsbD k = true
  · simp [hl, BitVec.getLsbD_extractLsb']
  · simp only [hl, BitVec.getLsbD_extractLsb', Bool.not_false, Bool.and_true, Bool.and_false, Bool.or_false,
      Bool.false_eq_true, if_false]
    have : 8 * k + i < 32 := by omega
    simp [this]

end Sys2Proof.Machine
end

section
/-! PROOF. Frames (O12, O13): a whole frame is its parts, data out shows the device's bytes bit by bit, and once the command byte
is complete the shifter does not look at the rest of the device. -/

namespace Sys2Proof.Machine

theorem bitsOf_length (bytes : List Byte) : (bitsOf bytes).length = 8 * bytes.length := by
  induction bytes with
  | nil => rfl
  | cons b rest ih =>
    rw [bitsOf_cons, List.length_append, ih, List.length_cons, show (bitsOfByte b).length = 8 from rfl]
    omega

namespace Shifter

variable {s u : State} {f : Shifter}

/-! ## The shifter, bit by bit and byte by byte -/

theorem phaseAfterCode_ne (code : Byte) : phaseAfterCode code ≠ .idle ∧ phaseAfterCode code ≠ .command ∧ phaseAfterCode code ≠ .busy := by
  unfold phaseAfterCode
  split
  · exact ⟨nofun, nofun, nofun⟩
  all_goals split <;> exact ⟨nofun, nofun, nofun⟩

theorem phaseAfterParam_ne (code : Byte) (n : Nat) :
    phaseAfterParam code n ≠ .idle ∧ phaseAfterParam code n ≠ .command ∧ phaseAfterParam code n ≠ .busy := by
  unfold phaseAfterParam
  split
  · exact ⟨nofun, nofun, nofun⟩
  all_goals split <;> exact ⟨nofun, nofun, nofun⟩

/-- A byte leaves an open frame open. -/
theorem takeByte_phase_ne_idle (s : State) (b : Byte) (h : f.phase ≠ .idle) : (f.takeByte s b).phase ≠ .idle := by
  unfold takeByte
  split
  · exact h
  · exact h
  · exact h
  · exact h
  · exact (phaseAfterCode_ne b).1
  · dsimp only
    split
    · exact nofun
    · exact (phaseAfterParam_ne _ _).1

/-- A byte does not bring the shifter back to the command byte. -/
theorem takeByte_phase_ne_command (s : State) (b : Byte) (h : f.phase ≠ .command) : (f.takeByte s b).phase ≠ .command := by
  unfold takeByte
  split
  · exact h
  · exact h
  · exact h
  · exact h
  · next hc => exact absurd hc h
  · dsimp only
    split
    · exact nofun
    · exact (phaseAfterParam_ne _ _).2.1

/-- Past the command byte a host byte is taken without a look at the device (R182). -/
theorem takeByte_congr (s u : State) (b : Byte) (h : f.phase ≠ .command) : f.takeByte s b = f.takeByte u b := by
  unfold takeByte
  split
  · rfl
  · rfl
  · rfl
  · rfl
  · next hc => exact absurd hc h
  · rfl

theorem clockBit_phase (s : State) (f : Shifter) (b : Bool) :
    (f.clockBit s b).phase = f.phase ∨ ∃ x, (f.clockBit s b).phase = (f.takeByte s x).phase := by
  unfold clockBit
  dsimp only
  split
  · exact .inl rfl
  · exact .inr ⟨_, rfl⟩

theorem foldl_clockBit_phase_ne_idle (s : State) (bits : List Bool) (h : f.phase ≠ .idle) :
    (bits.foldl (clockBit s) f).phase ≠ .idle := by
  induction bits generalizing f with
  | nil => exact h
  | cons b rest ih =>
    refine ih ?_
    obtain heq | ⟨x, heq⟩ := clockBit_phase s f b <;> rw [heq]
    · exact h
    · exact takeByte_phase_ne_idle s x h

/-- Past the command byte bits are clocked in without a look at the device (R182). -/
theorem foldl_clockBit_congr (s u : State) (bits : List Bool) (h : f.phase ≠ .command) :
    bits.foldl (clockBit s) f = bits.foldl (clockBit u) f := by
  induction bits generalizing f with
  | nil => rfl
  | cons b rest ih =>
    have hbit : f.clockBit s b = f.clockBit u b := by
      unfold clockBit
      rw [takeByte_congr s u _ h]
    rw [List.foldl_cons, List.foldl_cons, ← hbit]
    refine ih ?_
    obtain heq | ⟨x, heq⟩ := clockBit_phase s f b <;> rw [heq]
    · exact h
    · exact takeByte_phase_ne_command s x h

/-- Bytes clocked bit by bit are the bytes exchanged (R180). -/
theorem foldl_clockBit_bitsOf (s : State) (bytes : List Byte) (hu : f.unfinished = []) (hb : f.bits % 8 = 0) :
    (bitsOf bytes).foldl (clockBit s) f = bytes.foldl (exchange s) f := by
  induction bytes generalizing f with
  | nil => rfl
  | cons b rest ih =>
    rw [bitsOf_cons, List.foldl_append, clockBit_byte s f b hu hb, List.foldl_cons]
    exact ih rfl (by simp only [exchange]; omega)

/-- Each bit clocked in adds the bit shown to those that the host has sampled (R180). -/
theorem clockBit_sent (s : State) (f : Shifter) (b : Bool) : (f.clockBit s b).sent = f.sent ++ [f.shownBit] := rfl

/-- The bits sampled are those shown one after another. -/
theorem foldl_clockBit_sent (s : State) (bits : List Bool) :
    (bits.foldl (clockBit s) f).sent =
      f.sent ++ (List.range bits.length).map (fun n => ((bits.take n).foldl (clockBit s) f).shownBit) := by
  induction bits generalizing f with
  | nil => simp
  | cons b rest ih =>
    rw [List.foldl_cons, ih, clockBit_sent, List.length_cons, List.range_succ_eq_map, List.map_cons, List.map_map,
      List.append_assoc]
    rfl

/-- The frame is of the command `code`, past its command byte, or is a BUSY frame (R179, R186). -/
def PastCode (code : Byte) (f : Shifter) : Prop := f.phase ≠ .idle ∧ f.phase ≠ .command ∧ f.otherCommand code = false

theorem pastCode_exchange {code : Byte} (h : PastCode code f) (s : State) (b : Byte) : PastCode code (f.exchange s b) := by
  obtain ⟨hidle, hcommand, hother⟩ := h
  refine ⟨takeByte_phase_ne_idle s b hidle, takeByte_phase_ne_command s b hcommand, ?_⟩
  have hcode : (f.exchange s b).code = f.code := by
    unfold exchange takeByte
    dsimp only
    split
    · rfl
    · rfl
    · rfl
    · rfl
    · next hc => exact absurd hc hcommand
    · rfl
  rw [otherCommand, hcode]
  exact hother

theorem pastCode_foldl {code : Byte} (s : State) (bytes : List Byte) (h : PastCode code f) :
    PastCode code (bytes.foldl (exchange s) f) := by
  induction bytes generalizing f with
  | nil => exact h
  | cons b rest ih => exact ih (pastCode_exchange h s b)

/-- The command byte puts the frame past it. -/
theorem pastCode_opened (s u : State) (code : Byte) : PastCode code ((opened u).exchange s code) := by
  unfold opened exchange takeByte
  by_cases h : u.mode = .resetting
  · simp only [h, if_true]
    exact ⟨nofun, nofun, rfl⟩
  · simp only [h, if_false]
    exact ⟨(phaseAfterCode_ne code).1, (phaseAfterCode_ne code).2.1, by simp [otherCommand]⟩

end Shifter

namespace State

variable {s : State}

/-! ## What follows a frame event -/

/-- A change of the link that leaves the flags leaves a settled device settled. -/
theorem settle_of_link (hs : Settled s) (before : State) (l : Link) (hl : l.flags = s.link.flags) :
    before.settle (s.setLink l) = s.setLink l :=
  settle_of_settled _ _ ⟨nothingDue_setLink hs.1 l, by rw [setLink_link, hl]; exact hs.2⟩

/-- What follows at once looks at the state before the happening for its arbiter alone (R122). -/
theorem settle_before {b b' : State} (h : b.arbiter = b'.arbiter) (a : State) : b.settle a = b'.settle a := by
  simp only [settle, arbitrate, grantAtResponse, inPlace, h]

theorem selectFall_of_high (h : s.link.selectLow = false) :
    s.selectFall = s.setLink { s.link with selectLow := true, shifter := Shifter.opened s } := by
  simp [selectFall, h]

theorem opened_phase_ne_idle (s : State) : (Shifter.opened s).phase ≠ .idle := by
  unfold Shifter.opened
  dsimp only
  split <;> exact nofun

theorem clockBits_of_open (h : s.link.shifter.phase ≠ .idle) (bits : List Bool) :
    s.clockBits bits = s.setShifter (bits.foldl (Shifter.clockBit s) s.link.shifter) := by
  rw [clockBits, if_pos (by simpa [frameOpen] using h)]

theorem clockBytes_of_open (h : s.link.shifter.phase ≠ .idle) (bytes : List Byte) :
    s.clockBytes bytes = s.setShifter (bytes.foldl (Shifter.exchange s) s.link.shifter) := by
  rw [clockBytes, if_pos (by simpa [frameOpen] using h)]

/-- At the end of an open frame of the command the bits sent are kept as what data out showed, and the rest of the happening is
behind the link. -/
theorem rise_keepsFrame {c : Command} (hc : c.Moving) (hpast : Shifter.PastCode c.code s.link.shifter) (before : State) :
    s.selectRise.KeepsFrame (before.settle (c.rise s)) ∧ s.selectRise.link.dataOut = s.link.shifter.sent ∧
      s.selectRise.link.shifter = Shifter.idle := by
  obtain ⟨hidle, -, hother⟩ := hpast
  have hrise : s.selectRise.KeepsFrame (c.rise s) := by
    unfold Command.rise
    dsimp only
    split
    · next h => exact absurd (hother.symm.trans h) Bool.noConfusion
    · split
      · exact ⟨rfl, rfl, rfl⟩
      · split
        · exact (moves_refuseFrame _ _).keepsFrame
        · exact (moves_run _ hc _).keepsFrame
  exact ⟨hrise.trans (moves_settle _ before).keepsFrame, by simp [selectRise, hidle], rfl⟩

end State

/-- Settles O12. -/
theorem wholeFrameIsItsParts : Obligations.WholeFrameIsItsParts := by
  intro s p ps hp hs hrun hhigh
  obtain ⟨c, hcode, -, hexec, hmoving⟩ := command_of_linkRow hp
  have hfall := State.selectFall_of_high hhigh
  have hs1 : Settled s.selectFall := by rw [hfall]; exact ⟨State.nothingDue_setLink hs.1 _, hs.2⟩
  have hrun1 : s.selectFall.run = .running := by rw [hfall]; exact hrun
  have hopen : s.selectFall.link.shifter = Shifter.opened s := by rw [hfall]; rfl
  have hidle : s.selectFall.link.shifter.phase ≠ .idle := by rw [hopen]; exact s.opened_phase_ne_idle
  have hclock : ∀ bits, exec (p.2 (.clock bits)) s.selectFall = .next (s.selectFall.clockBits bits) := by
    intro bits
    rw [hexec, frameHappening_of_running hrun1, Command.on, State.clockBits_of_open hidle]
    exact congrArg Host.Outcome.next (State.settle_of_link hs1 _ _ rfl)
  have hbytes : s.selectFall.clockBytes (c.code :: ps) = s.selectFall.clockBits (bitsOf (p.1 :: ps)) := by
    rw [State.clockBits_of_open hidle, State.clockBytes_of_open hidle, hcode,
      Shifter.foldl_clockBit_bitsOf _ _ (by rw [hopen]; rfl) (by rw [hopen]; rfl)]
  have hpast : Shifter.PastCode c.code (s.selectFall.clockBits (bitsOf (p.1 :: ps))).link.shifter := by
    rw [← hbytes, State.clockBytes_of_open hidle, List.foldl_cons]
    refine Shifter.pastCode_foldl _ _ ?_
    rw [hopen]
    exact Shifter.pastCode_opened _ s c.code
  have hshifter : ∀ bits, (s.selectFall.clockBits bits).link.shifter =
      bits.foldl (Shifter.clockBit s.selectFall) s.selectFall.link.shifter := by
    intro bits
    rw [State.clockBits_of_open hidle]
    rfl
  have hsent : s.selectFall.link.shifter.sent = [] := by rw [hopen]; rfl
  generalize hs2 : s.selectFall.clockBits (bitsOf (p.1 :: ps)) = s2 at hbytes hpast
  obtain ⟨hkeeps, hout, hend⟩ := State.rise_keepsFrame hmoving hpast s2
  have hdata : (s2.settle (c.rise s2)).link.dataOut = (List.range (8 * (ps.length + 1))).map (fun n =>
      (((bitsOf (p.1 :: ps)).take n).foldl (Shifter.clockBit s.selectFall) s.selectFall.link.shifter).shownBit) := by
    rw [hkeeps.dataOut, hout, ← hs2, hshifter, Shifter.foldl_clockBit_sent, hsent, List.nil_append, bitsOf_length, List.length_cons]
  have hrun2 : s2.run = .running := by rw [← hs2, State.clockBits_of_open hidle]; exact hrun1
  have harb : s.arbiter = s2.arbiter := by rw [← hs2, State.clockBits_of_open hidle, hfall]; rfl
  refine ⟨s.selectFall, s2, s2.settle (c.rise s2), ?_, hs2 ▸ hclock _, ?_, ?_, ?_, ?_, fun n hn => ?_⟩
  · rw [hexec, frameHappening_of_running hrun, Command.on, hfall]
    exact congrArg Host.Outcome.next (State.settle_of_link hs _ _ rfl)
  · rw [hexec, frameHappening_of_running hrun2, Command.on]
  · rw [hexec, frameHappening_of_running hrun, Command.on, Command.whole, if_neg (by simp [hhigh]), hbytes,
      State.settle_before harb]
  · rw [hdata, List.length_map, List.length_range]
  · rw [State.dataOutLevel, if_neg]
    rw [State.frameOpen, hkeeps.shifter, hend]
    exact Bool.noConfusion
  · refine ⟨_, hclock _, ?_⟩
    rw [hdata, List.getElem?_map, List.getElem?_range hn, State.dataOutLevel, if_pos, hshifter]
    · rfl
    · rw [State.frameOpen, hshifter]
      simpa using Shifter.foldl_clockBit_phase_ne_idle _ _ hidle

/-- Settles O13. -/
theorem readDataIsTheSnapshot : Obligations.ReadDataIsTheSnapshot := by
  intro s u p bits hp hs hu hrun hrun' hlink hphase
  obtain ⟨c, -, -, hexec, -⟩ := command_of_linkRow hp
  have hclock : ∀ a : State, Settled a → a.run = .running →
      exec (p.2 (.clock bits)) a = .next (a.clockBits bits) := by
    intro a ha har
    rw [hexec, frameHappening_of_running har]
    unfold Command.on State.clockBits
    dsimp only
    split
    · exact congrArg Host.Outcome.next (State.settle_of_link ha _ _ rfl)
    · rw [State.settle_of_settled _ _ ha]
  refine ⟨_, _, hclock s hs hrun, hclock u hu hrun', ?_⟩
  unfold State.clockBits State.frameOpen
  rw [← hlink, Shifter.foldl_clockBit_congr s u bits hphase]
  split
  · simp only [State.setShifter, State.setLink_link, hlink]
  · exact hlink

end Sys2Proof.Machine
end

section
/-! PROOF. Frames that the checks of R183 refuse (O14, O15): what data out shows of them, byte by byte and bit by bit, and the
result each has. -/

namespace Sys2Proof.Machine
namespace Shifter

variable {s : State} {f : Shifter} {dev : Nat → Byte}

/-! ## What the device has sent after `n` whole bytes -/

/-- After `n` host bytes the device bytes `dev` have been sent, and byte `n` of them comes next. -/
structure Shows (dev : Nat → Byte) (n : Nat) (f : Shifter) : Prop where
  bits : f.bits = 8 * n
  unfinished : f.unfinished = []
  sent : f.sent = bitsOf ((List.range n).map dev)
  next : f.deviceByte n = dev n

theorem bitsOf_range_succ (dev : Nat → Byte) (n : Nat) :
    bitsOf ((List.range (n + 1)).map dev) = bitsOf ((List.range n).map dev) ++ bitsOfByte (dev n) := by
  rw [List.range_succ, List.map_append, bitsOf_append]
  simp

theorem Shows.exchange {n : Nat} (h : Shows dev n f) {b : Byte} (hnext : (f.exchange s b).deviceByte (n + 1) = dev (n + 1)) :
    Shows dev (n + 1) (f.exchange s b) := by
  have hsent : (f.exchange s b).sent = f.sent ++ bitsOfByte (f.deviceByte (f.bits / 8)) := rfl
  have hn : f.bits / 8 = n := by rw [h.bits]; omega
  refine ⟨?_, rfl, ?_, hnext⟩
  · have hbits : (f.exchange s b).bits = f.bits + 8 := rfl
    rw [hbits, h.bits]
    omega
  · rw [hsent, h.sent, hn, h.next, bitsOf_range_succ]

/-- The bits shown of an unfinished byte are the first of the device's byte (R180). -/
theorem Shows.partial_sent {n : Nat} (h : Shows dev n f) (s : State) {l : List Bool} (hl : l.length < 8) :
    (l.foldl (clockBit s) f).sent = (bitsOf ((List.range (n + 1)).map dev)).take (8 * n + l.length) := by
  have hlater : ∀ i < 8, f.laterBit i = (bitsOfByte (dev n)).getD i false := by
    intro i hi
    have hd : (f.bits + i) / 8 = n := by rw [h.bits]; omega
    have hm : (f.bits + i) % 8 = i := by rw [h.bits]; omega
    rw [laterBit, hd, hm, h.next]
    have hcases : ∀ b : Byte, ∀ i < 8, b.getLsbD (7 - i) = (bitsOfByte b).getD i false := by decide
    exact hcases _ i hi
  have hpart : (List.range l.length).map f.laterBit = (bitsOfByte (dev n)).take l.length := by
    apply List.ext_getElem
    · simp [show (bitsOfByte (dev n)).length = 8 from rfl]; omega
    · intro i h1 h2
      have hi : i < l.length := by simpa using h1
      simp only [List.getElem_map, List.getElem_range, List.getElem_take, hlater i (by omega)]
      rw [List.getD_eq_getElem?_getD, List.getElem?_eq_getElem]
      rfl
  have hlen : (bitsOf ((List.range n).map dev)).length = 8 * n := by rw [bitsOf_length, List.length_map, List.length_range]
  rw [clockBit_partial s l f (by rw [h.unfinished]; simpa using hl)]
  dsimp only
  rw [h.sent, hpart, bitsOf_range_succ, ← hlen, List.take_length_add_append]

/-- In a frame that sends no read data every device byte after the first is 00H (R181). -/
def Quiet (f : Shifter) : Prop :=
  f.phase = .busy ∨ f.phase = .excess ∨
    (f.phase = .parameters ∧ ∃ code n, f.code = some code ∧ commandForm code = some (.write n))

theorem Quiet.deviceByte (h : Quiet f) (n : Nat) : f.deviceByte (n + 1) = 0 := by
  have hphase : f.phase ≠ .data := by rcases h with h | h | ⟨h, -⟩ <;> rw [h] <;> exact nofun
  cases n with
  | zero => rfl
  | succ n => simp [Shifter.deviceByte, hphase]

theorem Quiet.exchange (h : Quiet f) (s : State) (b : Byte) : Quiet (f.exchange s b) := by
  rcases h with h | h | ⟨h, code, n, hcode, hform⟩
  · exact .inl (by simp [Shifter.exchange, takeByte, h])
  · exact .inr (.inl (by simp [Shifter.exchange, takeByte, h]))
  · by_cases hn : f.params.length + 1 < n
    · refine .inr (.inr ⟨?_, code, n, ?_, hform⟩) <;>
        simp [Shifter.exchange, takeByte, h, hcode, phaseAfterParam, hform, hn]
    · exact .inr (.inl (by simp [Shifter.exchange, takeByte, h, hcode, phaseAfterParam, hform, hn]))

theorem Quiet.foldl (h : Quiet f) (s : State) (hdev : ∀ n, dev (n + 1) = 0) (bytes : List Byte) {n : Nat} (hf : Shows dev n f) :
    Shows dev (n + bytes.length) (bytes.foldl (Shifter.exchange s) f) := by
  induction bytes generalizing f n with
  | nil => exact hf
  | cons b rest ih =>
    have hq := h.exchange s b
    have hnext := ih hq (hf.exchange ((hq.deviceByte n).trans (hdev n).symm))
    rwa [List.length_cons, show n + (rest.length + 1) = n + 1 + rest.length by omega]

theorem exchange_of_data (h : f.phase = .data) (s : State) (b : Byte) : (f.exchange s b).phase = .data ∧
    (f.exchange s b).snapshot = f.snapshot ∧ (f.exchange s b).params = f.params ∧ (f.exchange s b).byte0 = f.byte0 := by
  simp [Shifter.exchange, takeByte, h]

/-- In DATA every further byte shows the read data (R181). -/
theorem foldl_of_data (s : State) (bytes : List Byte) {n : Nat} (h : f.phase = .data) (hdev : ∀ k, f.deviceByte k = dev k)
    (hf : Shows dev n f) : Shows dev (n + bytes.length) (bytes.foldl (Shifter.exchange s) f) := by
  induction bytes generalizing f n with
  | nil => exact hf
  | cons b rest ih =>
    obtain ⟨hphase, hsnap, hparams, hbyte⟩ := exchange_of_data h s b
    have hdev' : ∀ k, (f.exchange s b).deviceByte k = dev k := fun k =>
      (deviceByte_congr (hphase.trans h.symm) hsnap hparams hbyte k).trans (hdev k)
    have hnext := ih hphase hdev' (hf.exchange (hdev' _))
    rwa [List.length_cons, show n + (rest.length + 1) = n + 1 + rest.length by omega]

end Shifter

theorem commandForm_read_le {code : Byte} {n : Nat} (h : commandForm code = some (.read n)) : n ≤ 1 := by
  unfold commandForm at h
  split at h <;> cases h <;> decide

/-- Every list of bits is a run of whole bytes with at most seven bits behind it. -/
theorem bits_split (bits : List Bool) : ∃ bytes rest, bits = bitsOf bytes ++ rest ∧ rest.length = bits.length % 8 ∧
    bytes.length = bits.length / 8 := by
  induction hn : bits.length using Nat.strongRecOn generalizing bits with
  | ind n ih =>
    by_cases hlt : bits.length < 8
    · exact ⟨[], bits, rfl, by omega, by simp; omega⟩
    · obtain ⟨bytes, rest, hbits, hrest, hbytes⟩ := ih (bits.drop 8).length (by rw [List.length_drop]; omega) (bits.drop 8) rfl
      have hbyte : bitsOfByte (byteOfBits (bits.take 8)) = bits.take 8 := by
        have hall : ∀ b0 b1 b2 b3 b4 b5 b6 b7 : Bool,
            bitsOfByte (byteOfBits [b0, b1, b2, b3, b4, b5, b6, b7]) = [b0, b1, b2, b3, b4, b5, b6, b7] := by decide
        obtain ⟨b0, b1, b2, b3, b4, b5, b6, b7, htake⟩ : ∃ b0 b1 b2 b3 b4 b5 b6 b7, bits.take 8 = [b0, b1, b2, b3, b4, b5, b6, b7] := by
          match bits, hlt with
          | b0 :: b1 :: b2 :: b3 :: b4 :: b5 :: b6 :: b7 :: _, _ => exact ⟨b0, b1, b2, b3, b4, b5, b6, b7, rfl⟩
          | [], h | [_], h | [_, _], h | [_, _, _], h | [_, _, _, _], h | [_, _, _, _, _], h | [_, _, _, _, _, _], h
          | [_, _, _, _, _, _, _], h => simp at h
        rw [htake]
        exact hall ..
      refine ⟨byteOfBits (bits.take 8) :: bytes, rest, ?_, ?_, ?_⟩
      · rw [bitsOf_cons, hbyte, List.append_assoc, ← hbits, List.take_append_drop]
      · rw [hrest, List.length_drop]; omega
      · rw [List.length_cons, hbytes, List.length_drop]; omega

/-- A frame on a ready link keeps its command byte, and is no BUSY frame. -/
theorem Shifter.code_of_ready {s : State} (h : s.mode ≠ .resetting) (u : State) (code : Byte) (ps : List Byte) :
    ((code :: ps).foldl (Shifter.exchange u) (Shifter.opened s)).code = some code ∧
      ((code :: ps).foldl (Shifter.exchange u) (Shifter.opened s)).phase ≠ .busy := by
  have hstep : ∀ (f : Shifter) (b : Byte), f.code = some code ∧ f.phase ≠ .busy ∧ f.phase ≠ .command →
      (f.exchange u b).code = some code ∧ (f.exchange u b).phase ≠ .busy ∧ (f.exchange u b).phase ≠ .command := by
    rintro f b ⟨hcode, hbusy, hcommand⟩
    refine ⟨?_, ?_, Shifter.takeByte_phase_ne_command u b hcommand⟩
    · cases hp : f.phase <;> simp_all [Shifter.exchange, Shifter.takeByte]
    · cases hp : f.phase <;> simp_all [Shifter.exchange, Shifter.takeByte, (Shifter.phaseAfterParam_ne _ _).2.2]
  have hfirst : ((Shifter.opened s).exchange u code).code = some code ∧ ((Shifter.opened s).exchange u code).phase ≠ .busy ∧
      ((Shifter.opened s).exchange u code).phase ≠ .command := by
    simp [Shifter.exchange, Shifter.takeByte, Shifter.opened, h, Shifter.phaseAfterCode_ne code]
  rw [List.foldl_cons]
  have hall : ∀ f : Shifter, f.code = some code ∧ f.phase ≠ .busy ∧ f.phase ≠ .command →
      (ps.foldl (Shifter.exchange u) f).code = some code ∧ (ps.foldl (Shifter.exchange u) f).phase ≠ .busy := by
    induction ps with
    | nil => exact fun f hf => ⟨hf.1, hf.2.1⟩
    | cons b rest ih => exact fun f hf => ih _ (hstep f b hf)
  exact hall _ hfirst

namespace State

variable {s : State}

/-- The frame of no read data sends the bytes of a write command's frame (R181). -/
theorem readSent_nil (s : State) (n : Nat) : s.readSent [] n = s.writeSent n := by
  rw [readSent, writeSent, List.range_succ_eq_map, List.map_cons, List.map_map]
  congr 1
  rw [List.eq_replicate_iff]
  refine ⟨by simp, fun b hb => ?_⟩
  obtain ⟨i, -, rfl⟩ := List.mem_map.mp hb
  cases i <;> rfl

theorem readByte_nil_succ (s : State) (n : Nat) : s.readByte [] (n + 1) = 0 := by
  cases n <;> rfl

/-- Nothing has been sent as select has just fallen. -/
theorem shows_opened (s : State) (d : List Byte) : Shifter.Shows (s.readByte d) 0 (Shifter.opened s) := ⟨rfl, rfl, rfl, rfl⟩

/-- The bytes of a frame in RESETTING: the last result, then 00H (R186). -/
theorem shows_of_resetting (h : s.mode = .resetting) (u : State) (bytes : List Byte) :
    Shifter.Shows (s.readByte []) bytes.length (bytes.foldl (Shifter.exchange u) (Shifter.opened s)) ∧
      (bytes.foldl (Shifter.exchange u) (Shifter.opened s)).phase = .busy ∧
      (bytes.foldl (Shifter.exchange u) (Shifter.opened s)).code = none := by
  have hopened : (Shifter.opened s).phase = .busy := by simp [Shifter.opened, h]
  constructor
  · have hshows := Shifter.Quiet.foldl (.inl hopened) u s.readByte_nil_succ bytes (s.shows_opened [])
    rwa [Nat.zero_add] at hshows
  · have hbusy : ∀ f : Shifter, f.phase = .busy ∧ f.code = none →
        (bytes.foldl (Shifter.exchange u) f).phase = .busy ∧ (bytes.foldl (Shifter.exchange u) f).code = none := by
      induction bytes with
      | nil => exact fun f h => h
      | cons b rest ih => exact fun f h => ih _ (by simp [Shifter.exchange, Shifter.takeByte, h.1, h.2])
    exact hbusy _ ⟨hopened, rfl⟩

/-- The bytes of a frame of command byte `code` on a ready link: the last result, the filler, and read data only where the
command is a read whose parameters are complete (R181, R182). -/
theorem shows_of_ready (h : s.mode ≠ .resetting) (u : State) (hu : ∀ c, u.snapshot c = s.snapshot c) (code : Byte) (ps : List Byte) :
    ∃ data : List Byte,
      Shifter.Shows (s.readByte data) (ps.length + 1) ((code :: ps).foldl (Shifter.exchange u) (Shifter.opened s)) ∧
      ((∀ n, commandForm code = some (.read n) → ps.length < n) → data = []) ∧ (code = 0x01#8 → data = identifyData) := by
  have hfirst : (Shifter.opened s).exchange u code = s.shifterAfterCode code := by
    simp [Shifter.exchange, Shifter.takeByte, Shifter.opened, h, shifterAfterCode, Shifter.deviceByte, Shifter.idle, hu]
  have hone : ∀ d, Shifter.Shows (s.readByte d) 1 (s.shifterAfterCode code) := fun d => ⟨rfl, rfl, rfl, rfl⟩
  rw [List.foldl_cons, hfirst]
  have hquiet : Shifter.Quiet (s.shifterAfterCode code) →
      Shifter.Shows (s.readByte []) (ps.length + 1) (ps.foldl (Shifter.exchange u) (s.shifterAfterCode code)) := by
    intro hq
    have hshows := hq.foldl u s.readByte_nil_succ ps (hone [])
    rwa [Nat.add_comm] at hshows
  cases hform : commandForm code with
  | none =>
    refine ⟨[], hquiet (.inr (.inl ?_)), fun _ => rfl, fun hid => ?_⟩
    · simp [shifterAfterCode, phaseAfterCode, hform]
    · rw [hid] at hform; cases hform
  | some form =>
    cases form with
    | write n =>
      refine ⟨[], hquiet ?_, fun _ => rfl, fun hid => ?_⟩
      · by_cases hn : n = 0
        · exact .inr (.inl (by simp [shifterAfterCode, phaseAfterCode, hform, hn]))
        · exact .inr (.inr ⟨by simp [shifterAfterCode, phaseAfterCode, hform, hn], code, n, rfl, hform⟩)
      · rw [hid] at hform; cases hform
    | read n =>
      obtain rfl | rfl : n = 0 ∨ n = 1 := by have := commandForm_read_le hform; omega
      · have hphase : (s.shifterAfterCode code).phase = .data := by simp [shifterAfterCode, phaseAfterCode, hform]
        refine ⟨(s.snapshot code).data [], ?_, fun hn => absurd (hn 0 rfl) (Nat.not_lt_zero _), fun hid => by rw [hid]; rfl⟩
        have hdev : ∀ k, (s.shifterAfterCode code).deviceByte k = s.readByte ((s.snapshot code).data []) k := by
          intro k
          match k with
          | 0 => rfl
          | 1 => rfl
          | k + 2 => simp only [Shifter.deviceByte, hphase, if_true]; rfl
        have hshows := Shifter.foldl_of_data u ps hphase hdev (hone _)
        rwa [Nat.add_comm] at hshows
      · have hphase : (s.shifterAfterCode code).phase = .parameters := by simp [shifterAfterCode, phaseAfterCode, hform]
        have hnot : code ≠ 0x01#8 := by rintro rfl; cases hform
        cases ps with
        | nil => exact ⟨[], hone [], fun _ => rfl, fun hid => absurd hid hnot⟩
        | cons b rest =>
          refine ⟨(s.snapshot code).data [b], ?_, fun hn => absurd (hn 1 rfl) (by simp), fun hid => absurd hid hnot⟩
          have hsecond : ((s.shifterAfterCode code).exchange u b).phase = .data ∧
              ((s.shifterAfterCode code).exchange u b).snapshot = s.snapshot code ∧
              ((s.shifterAfterCode code).exchange u b).params = [b] ∧
              ((s.shifterAfterCode code).exchange u b).byte0 = s.link.lastResult.code := by
            have hpc : phaseAfterCode code = .parameters := hphase
            simp [Shifter.exchange, Shifter.takeByte, shifterAfterCode, hpc, phaseAfterParam, hform]
          obtain ⟨hphase2, hsnap, hparams, hbyte⟩ := hsecond
          have hdev : ∀ k, ((s.shifterAfterCode code).exchange u b).deviceByte k = s.readByte ((s.snapshot code).data [b]) k := by
            intro k
            match k with
            | 0 => exact hbyte
            | 1 => rfl
            | k + 2 => simp only [Shifter.deviceByte, hphase2, if_true, hsnap, hparams]; rfl
          have hshows := Shifter.foldl_of_data u rest hphase2 hdev ((hone _).exchange (hdev 2))
          rwa [List.length_cons, List.foldl_cons, show rest.length + 1 + 1 = 1 + 1 + rest.length by omega]

/-! ## Frames that are refused -/

theorem selectFall_shifter (h : s.link.selectLow = false) : s.selectFall.link.shifter = Shifter.opened s := by
  rw [selectFall_of_high h]
  rfl

/-- Select rises at the end of an open frame: the bits sent are what data out showed. -/
theorem selectRise_of_open (hhigh : s.link.selectLow = false) (f : Shifter) (hidle : f.phase ≠ .idle) :
    (s.selectFall.setShifter f).selectRise =
      s.setLink { s.link with selectLow := false, shifter := Shifter.idle, dataOut := f.sent } := by
  rw [selectFall_of_high hhigh]
  simp only [selectRise, setShifter, setLink_link, hidle, if_false]
  rfl

/-- Select rises at the end of an open frame whose checks give the result `r`, FRAME aside. -/
theorem refuseFrame_framed (hhigh : s.link.selectLow = false) (f : Shifter) (hidle : f.phase ≠ .idle) {r : Result} (hr : r ≠ .frame) :
    ((s.selectFall.setShifter f).selectRise).refuseFrame r = s.framedBits r f.sent := by
  rw [refuseFrame, if_neg hr, selectRise_of_open hhigh f hidle]
  rfl

end State

variable {s : State}

/-- A whole frame that the checks of R183 refuse has its result, and no other effect. -/
theorem frameHappening_refused (hs : Settled s) (hrun : s.run = .running) (hhigh : s.link.selectLow = false) (c : Command)
    (ps : List Byte) {f : Shifter} {r : Result} {d : List Byte}
    (hf : (c.code :: ps).foldl (Shifter.exchange s.selectFall) (Shifter.opened s) = f)
    (hshows : Shifter.Shows (s.readByte d) (ps.length + 1) f) (hjudge : f.judge = some r) (hr : r ≠ .frame) :
    frameHappening s c (.whole ps) = .next (s.framed r (s.readSent d ps.length)) := by
  have hopen := State.selectFall_shifter hhigh
  have hphase : s.selectFall.link.shifter.phase ≠ .idle := by rw [hopen]; exact s.opened_phase_ne_idle
  obtain ⟨hidle, -, hother⟩ : Shifter.PastCode c.code f := by
    rw [← hf, List.foldl_cons]
    exact Shifter.pastCode_foldl _ _ (Shifter.pastCode_opened _ s c.code)
  have hbits : f.bits ≠ 0 := by rw [hshows.bits]; omega
  have hrise : c.rise (s.selectFall.setShifter f) = s.framedBits r f.sent := by
    unfold Command.rise
    simp only [State.setShifter, State.setLink_link, hother, Bool.false_eq_true, if_false, hidle, hbits, or_self, hjudge]
    exact State.refuseFrame_framed hhigh f hidle hr
  rw [frameHappening_of_running hrun, Command.on, Command.whole, if_neg (by simp [hhigh]), State.clockBytes_of_open hphase, hopen,
    hf, hrise, hshows.sent]
  exact congrArg Host.Outcome.next (State.settle_of_settled _ _ (State.settled_framed hs _ _))

/-- A frame in RESETTING is answered BUSY (R186). -/
theorem frameHappening_resetting (hs : Settled s) (hrun : s.run = .running) (hmode : s.mode = .resetting)
    (hhigh : s.link.selectLow = false) (c : Command) (ps : List Byte) :
    frameHappening s c (.whole ps) = .next (s.framed .busy (s.writeSent ps.length)) := by
  obtain ⟨hshows, hbusy, -⟩ := State.shows_of_resetting hmode s.selectFall (c.code :: ps)
  rw [← s.readSent_nil]
  exact frameHappening_refused hs hrun hhigh c ps rfl hshows (by rw [Shifter.judge, if_pos hbusy]) nofun

/-- A bad frame: its bits are clocked in, and the device is left with the result of the checks. -/
theorem exec_frameError (hrun : s.run = .running) {bits : List Bool} (hbits : (Instr.frameError bits).wf = true) :
    exec (.frameError bits) s = .next (s.settle (badFrame bits s)) := by
  have hne : ¬ bits.length % 8 = 0 := by simpa [Instr.wf] using hbits
  simp only [exec, execFrameError, if_neg hne, State.runs, hrun, beq_self_eq_true, if_true]

/-- A bad frame is refused by its checks; the bits it shows are the first of the device's bytes, the unfinished one as well
(R180, R181, R183). -/
theorem badFrame_refused (hhigh : s.link.selectLow = false) {bytes : List Byte} {rest : List Bool} {f : Shifter} {r : Result}
    {d : List Byte} (hlen : rest.length < 8) (hf : bytes.foldl (Shifter.exchange s.selectFall) (Shifter.opened s) = f)
    (hshows : Shifter.Shows (s.readByte d) bytes.length f)
    (hjudge : (rest.foldl (Shifter.clockBit s.selectFall) f).judge = some r) :
    ∃ g : Shifter, g.phase ≠ .idle ∧ g.sent = (bitsOf (s.readSent d bytes.length)).take (8 * bytes.length + rest.length) ∧
      badFrame (bitsOf bytes ++ rest) s = ((s.selectFall.setShifter g).selectRise).refuseFrame r := by
  have hopen := State.selectFall_shifter hhigh
  have hphase : s.selectFall.link.shifter.phase ≠ .idle := by rw [hopen]; exact s.opened_phase_ne_idle
  have hfold : (bitsOf bytes ++ rest).foldl (Shifter.clockBit s.selectFall) (Shifter.opened s) =
      rest.foldl (Shifter.clockBit s.selectFall) f := by
    rw [List.foldl_append, Shifter.foldl_clockBit_bitsOf _ _ rfl rfl, hf]
  have hidle : (rest.foldl (Shifter.clockBit s.selectFall) f).phase ≠ .idle := by
    rw [← hfold]
    exact Shifter.foldl_clockBit_phase_ne_idle _ _ s.opened_phase_ne_idle
  refine ⟨_, hidle, hshows.partial_sent s.selectFall hlen, ?_⟩
  rw [badFrame, if_neg (by simp [hhigh]), State.clockBits_of_open hphase, hopen, hfold, State.riseBad]
  simp only [State.setShifter, State.setLink_link, hidle, if_false, hjudge]

/-- An UNKNOWN_COMMAND row of an undefined code is a frame of no command. -/
theorem exec_unknownCommand {code : Byte} {ev : FrameEvent} (h : (Instr.unknownCommand code ev).wf = true) (s : State) :
    commandForm code = none ∧ exec (.unknownCommand code ev) s = frameHappening s (unknownCommandOf code) ev := by
  have hnone : commandForm code = none := by
    have hc : definedCodes.contains code = false := by simpa [Instr.wf] using h
    rw [Laws.Rows.definedCodes_iff] at hc
    simpa using hc
  exact ⟨hnone, by simp [exec, execUnknownCommand, hnone]⟩

/-- Settles O14. -/
theorem framesInResettingAreBusy : Obligations.FramesInResettingAreBusy := by
  intro s hs hrun hmode hhigh
  refine ⟨fun p hp ps => ?_, fun code ps hwf => ?_, fun bits hwf => ?_⟩
  · obtain ⟨c, -, -, hexec, -⟩ := command_of_linkRow hp
    rw [hexec]
    exact frameHappening_resetting hs hrun hmode hhigh c ps
  · rw [(exec_unknownCommand hwf s).2]
    exact frameHappening_resetting hs hrun hmode hhigh _ ps
  · obtain ⟨bytes, rest, hbits, hrest, hbytes⟩ := bits_split bits
    obtain ⟨hshows, hbusy, -⟩ := State.shows_of_resetting hmode s.selectFall bytes
    have hlt : rest.length < 8 := by omega
    have hjudge : (rest.foldl (Shifter.clockBit s.selectFall)
        (bytes.foldl (Shifter.exchange s.selectFall) (Shifter.opened s))).judge = some .busy := by
      rw [Shifter.clockBit_partial _ _ _ (by rw [hshows.unfinished]; simpa using hlt), Shifter.judge]
      exact if_pos hbusy
    obtain ⟨g, hidle, hsent, hbad⟩ := badFrame_refused hhigh hlt rfl hshows hjudge
    rw [exec_frameError hrun hwf, hbits, hbad, State.refuseFrame_framed hhigh g hidle (r := .busy) nofun, hsent, ← hbits, ← hbytes,
      s.readSent_nil, show 8 * bytes.length + rest.length = bits.length by omega]
    exact congrArg Host.Outcome.next (State.settle_of_settled _ _ ⟨State.nothingDue_setLink hs.1 _, hs.2⟩)

/-! ## The checks of R183 before the command's own (O15) -/

/-- A frame of another length than its command's, or of an undefined code, has the result of the check that refuses it (R183). -/
theorem frameHappening_ready_refused (hs : Settled s) (hl : LinkReady s) (c : Command) (ps : List Byte) {r : Result} (hr : r ≠ .frame)
    (hdata : ∀ n, commandForm c.code = some (.read n) → ps.length < n)
    (hjudge : (match commandForm c.code with
      | none => some .unknown
      | some form => if wrongLength form (ps.length + 1) then some Result.length else none) = some r) :
    frameHappening s c (.whole ps) = .next (s.framed r (s.writeSent ps.length)) := by
  obtain ⟨hrun, hmode, hhigh⟩ := hl
  obtain ⟨data, hshows, hnone, -⟩ := State.shows_of_ready hmode s.selectFall
    (fun code => by rw [State.selectFall_of_high hhigh]; rfl) c.code ps
  obtain rfl := hnone hdata
  rw [← s.readSent_nil]
  refine frameHappening_refused hs hrun hhigh c ps rfl hshows ?_ hr
  obtain ⟨hcode, hbusy⟩ := Shifter.code_of_ready hmode s.selectFall c.code ps
  rw [Shifter.judge, if_neg hbusy, if_neg (by rw [hshows.bits]; omega), hcode, Option.bind_some,
    show (List.foldl (Shifter.exchange s.selectFall) (Shifter.opened s) (c.code :: ps)).bits / 8 = ps.length + 1 by
      rw [hshows.bits]; omega]
  exact hjudge

/-- The link after a frame of a bad bit count: the FRAME flag and the change count (R183, R188, R189). -/
theorem settle_refuseFrame_frame (hs : Settled s) (hhigh : s.link.selectLow = false) (g : Shifter) (hidle : g.phase ≠ .idle) :
    s.settle (((s.selectFall.setShifter g).selectRise).refuseFrame .frame) =
      let t := s.framedBits .frame g.sent
      { t with link := { t.link with flags := { s.link.flags with frame := true }, changeCount := s.link.changeCount + 1 } } := by
  rw [State.selectRise_of_open hhigh g hidle]
  exact State.settle_of_settled _ _ ⟨State.nothingDue_setLink hs.1 _, hs.2⟩

/-- What a bad frame shows of read data: none but for a read command's code, and IDENTIFY's own for its code (R181, R182). -/
theorem badFrame_data (hmode : s.mode ≠ .resetting) (hhigh : s.link.selectLow = false) {bits : List Bool} {bytes : List Byte}
    {rest : List Bool} (hbits : bits = bitsOf bytes ++ rest) (hlt : rest.length < 8) :
    ∃ data : List Byte,
      Shifter.Shows (s.readByte data) bytes.length (bytes.foldl (Shifter.exchange s.selectFall) (Shifter.opened s)) ∧
      (bytes.foldl (Shifter.exchange s.selectFall) (Shifter.opened s)).phase ≠ .busy ∧
      ((∀ p ∈ linkCommands, ∀ n, commandForm p.1 = some (.read n) → bits.take 8 ≠ bitsOfByte p.1) → data = []) ∧
      (bits.take 8 = bitsOfByte 0x01#8 → data = identifyData) := by
  cases bytes with
  | nil =>
    refine ⟨[], s.shows_opened [], by simp [Shifter.opened, hmode], fun _ => rfl, fun h => ?_⟩
    have hlen := congrArg List.length h
    rw [hbits, List.length_take, show (bitsOfByte 0x01#8).length = 8 from rfl] at hlen
    simp only [bitsOf_nil, List.nil_append] at hlen
    omega
  | cons code ps =>
    obtain ⟨data, hshows, hnone, hid⟩ := State.shows_of_ready hmode s.selectFall
      (fun code => by rw [State.selectFall_of_high hhigh]; rfl) code ps
    have hfirst : bits.take 8 = bitsOfByte code := by
      rw [hbits, bitsOf_cons, List.append_assoc]
      rfl
    refine ⟨data, hshows, (Shifter.code_of_ready hmode s.selectFall code ps).2, fun hnot => hnone (fun n hn => ?_), fun h => hid ?_⟩
    · obtain ⟨p, hp, heq⟩ := (commandForm_isSome_iff code).mp (by rw [hn]; rfl)
      exact absurd (heq ▸ hfirst) (hnot p hp n (heq ▸ hn))
    · rw [← byteOfBits_bitsOfByte code, ← hfirst, h, byteOfBits_bitsOfByte]

/-- Settles O15. -/
theorem frameChecksRefuseTheFrame : Obligations.FrameChecksRefuseTheFrame := by
  intro s hs hl
  obtain ⟨hrun, hmode, hhigh⟩ := id hl
  refine ⟨fun p hp => ?_, fun bits hwf => ?_, fun code ps hwf => ?_, fun p hp ps n hn => ?_⟩
  · obtain ⟨c, -, -, hexec, -⟩ := command_of_linkRow hp
    have hs1 : Settled s.selectFall := by rw [State.selectFall_of_high hhigh]; exact ⟨State.nothingDue_setLink hs.1 _, hs.2⟩
    have hrun1 : s.selectFall.run = .running := by rw [State.selectFall_of_high hhigh]; exact hrun
    refine ⟨s.selectFall, ?_, ?_⟩
    · rw [hexec, frameHappening_of_running hrun, Command.on, State.selectFall_of_high hhigh]
      exact congrArg Host.Outcome.next (State.settle_of_link hs _ _ rfl)
    · have hrise : c.rise s.selectFall =
          s.setLink { s.link with selectLow := false, shifter := Shifter.idle, dataOut := [] } := by
        have hempty := State.selectRise_of_open hhigh (Shifter.opened s) s.opened_phase_ne_idle
        have hsame : s.selectFall.setShifter (Shifter.opened s) = s.selectFall := by rw [State.selectFall_of_high hhigh]; rfl
        rw [hsame] at hempty
        unfold Command.rise
        rw [State.selectFall_shifter hhigh]
        simp only [Shifter.otherCommand, Shifter.opened, Shifter.idle, Option.any_none, Bool.false_eq_true, if_false, or_true,
          if_true, hempty]
      rw [hexec, frameHappening_of_running hrun1, Command.on, hrise]
      exact congrArg Host.Outcome.next (State.settle_of_link hs _ _ rfl)
  · obtain ⟨bytes, rest, hbits, hrest, hbytes⟩ := bits_split bits
    have hlt : rest.length < 8 := by omega
    have hpos : 0 < rest.length := by
      have hne : ¬ bits.length % 8 = 0 := by simpa [Instr.wf] using hwf
      omega
    obtain ⟨data, hshows, hbusy, hnone, hid⟩ := badFrame_data hmode hhigh hbits hlt
    have hjudge : (rest.foldl (Shifter.clockBit s.selectFall)
        (bytes.foldl (Shifter.exchange s.selectFall) (Shifter.opened s))).judge = some .frame := by
      rw [Shifter.clockBit_partial _ _ _ (by rw [hshows.unfinished]; simpa using hlt), Shifter.judge]
      dsimp only
      rw [if_neg hbusy, if_pos (by rw [hshows.bits]; omega)]
    obtain ⟨g, hidle, hsent, hbad⟩ := badFrame_refused hhigh hlt rfl hshows hjudge
    refine ⟨data, hnone, fun h => (hid h).trans identifyData_bytes, ?_⟩
    have hsent' : g.sent = (bitsOf (s.readSent data (bits.length / 8))).take bits.length := by
      rw [hsent, ← hbytes, show 8 * bytes.length + rest.length = bits.length by omega]
    rw [exec_frameError hrun hwf, show badFrame bits s = _ from hbits ▸ hbad, settle_refuseFrame_frame hs hhigh g hidle, hsent']
  · obtain ⟨hnone, hexec⟩ := exec_unknownCommand hwf s
    rw [hexec]
    refine frameHappening_ready_refused hs hl _ ps nofun (fun n hn => ?_) ?_
    · rw [show (unknownCommandOf code).code = code from rfl, hnone] at hn
      cases hn
    · rw [show (unknownCommandOf code).code = code from rfl, hnone]
  · obtain ⟨c, hcode, -, hexec, -⟩ := command_of_linkRow hp
    rw [hexec]
    refine frameHappening_ready_refused hs hl c ps nofun (fun m hm => ?_) ?_
    · rcases hn with ⟨hform, -⟩ | ⟨hform, hlen⟩ <;> rw [hcode, hform] at hm <;> cases hm
      exact hlen
    · rcases hn with ⟨hform, hlen⟩ | ⟨hform, hlen⟩ <;> rw [hcode, hform]
      · exact if_pos (by simpa [wrongLength] using hlen)
      · exact if_pos (by simpa [wrongLength] using hlen)

end Sys2Proof.Machine
end

section
/-! PROOF. The read commands (O17, O18): each is answered from the snapshot of its command byte, whose bytes are those of TABLE 11(d). -/

namespace Sys2Proof.Machine

variable {s : State}

/-! ## Values as bytes -/

theorem beBytes_one (v : Nat) : beBytes 1 v = [BitVec.ofNat 8 v] := by simp [beBytes]

/-- A byte's value as one byte is the byte. -/
theorem beBytes_one_toNat (b : Byte) : beBytes 1 b.toNat = [b] := by rw [beBytes_one, BitVec.ofNat_toNat, BitVec.setWidth_eq]

/-- The flags byte, flag by flag (TABLE 11(b)). -/
theorem toByte_eq (f : StatusFlags) : f.toByte = BitVec.ofNat 8 (f.pwr.toNat + 2 * f.hrst.toNat + 4 * f.srst.toNat +
    8 * f.tail.toNat + 16 * f.stall.toNat + 32 * f.ringerr.toNat + 64 * f.frame.toNat) := by
  have hall : ∀ p h s t l r m : Bool,
      StatusFlags.toByte { pwr := p, hrst := h, srst := s, tail := t, stall := l, ringerr := r, frame := m } =
        BitVec.ofNat 8 (p.toNat + 2 * h.toNat + 4 * s.toNat + 8 * t.toNat + 16 * l.toNat + 32 * r.toNat + 64 * m.toNat) := by decide
  exact hall ..

/-! ## The reads without a parameter (O17) -/

theorem exec_statusRead (ev : FrameEvent) (s : State) : exec (.statusRead ev) s = frameHappening s statusReadCommand ev := rfl
theorem exec_timeRead (ev : FrameEvent) (s : State) : exec (.timeRead ev) s = frameHappening s timeReadCommand ev := rfl
theorem exec_ringRead (ev : FrameEvent) (s : State) : exec (.ringRead ev) s = frameHappening s ringReadCommand ev := rfl
theorem exec_windowRead (ev : FrameEvent) (s : State) : exec (.windowRead ev) s = frameHappening s windowReadCommand ev := rfl
theorem exec_groupRead (ev : FrameEvent) (s : State) : exec (.groupRead ev) s = frameHappening s groupReadCommand ev := rfl

/-- STATUS READ's data, in the order of TABLE 11(d) (R190). -/
theorem statusData_eq (s : State) :
    s.statusData = beBytes 1 s.mode.code ++ beBytes 1 (s.timebase.freezeEnable && s.timebase.freezeLine).toNat ++
      beBytes 1 (s.link.flags.pwr.toNat + 2 * s.link.flags.hrst.toNat + 4 * s.link.flags.srst.toNat +
        8 * s.link.flags.tail.toNat + 16 * s.link.flags.stall.toNat + 32 * s.link.flags.ringerr.toNat +
        64 * s.link.flags.frame.toNat) ++
      [s.link.changeCount] ++ beBytes 2 (256 - s.poolUsed) ++ beBytes 1 s.commitQueue.length ++
      (match s.engine with
        | none => [0xFF]
        | some c => beBytes 1 c.group.val) ++ beBytes 1 s.records.queue.length := by
  have hengine : beBytes 1 ((s.engine.map (fun c => c.group.val)).getD 0xFF) = (match s.engine with
      | none => [0xFF]
      | some c => beBytes 1 c.group.val) := by
    cases s.engine <;> rfl
  have hflags : [s.link.flags.toByte] = beBytes 1 (s.link.flags.pwr.toNat + 2 * s.link.flags.hrst.toNat +
      4 * s.link.flags.srst.toNat + 8 * s.link.flags.tail.toNat + 16 * s.link.flags.stall.toNat +
      32 * s.link.flags.ringerr.toNat + 64 * s.link.flags.frame.toNat) := by rw [toByte_eq, beBytes_one]
  rw [State.statusData, hengine, hflags, beBytes_one_toNat]
  rfl

/-- RING READ's data, in the order of TABLE 11(d) (R161). -/
theorem ringData_eq (r : RecordUnit) :
    r.data = beBytes 1 r.enabled.toNat ++ beBytes 4 r.base.toNat ++ beBytes 2 r.capacity ++ beBytes 4 r.headAddr.toNat ++
      beBytes 4 r.tailAddr.toNat ++ beBytes 2 r.threshold ++ [r.urgencyMask] ++ beBytes 2 r.producer ++
      beBytes 2 r.generation ++ beBytes 2 r.consumer ++ beBytes 2 r.unconsumed ++
      (match r.urgentMark with
        | none => [0, 0, 0]
        | some m => 1 :: beBytes 2 m) ++
      beBytes 1 r.queue.length ++ beBytes 2 r.lostCount ++ beBytes 4 r.sequence.toNat := by
  have hmark : flagByte r.urgentMark.isSome ++ beBytes 2 (r.urgentMark.getD 0) = (match r.urgentMark with
      | none => [0, 0, 0]
      | some m => 1 :: beBytes 2 m) := by
    cases r.urgentMark with
    | none => simp [flagByte, beBytes]
    | some m => simp [flagByte, beBytes_one]
  rw [← hmark]
  simp only [RecordUnit.data, flagByte, List.append_assoc]

/-- Settles O17. -/
theorem statusTimeAndRingReads : Obligations.StatusTimeAndRingReads := by
  intro s ps hs hl
  refine ⟨?_, ?_, ?_⟩
  · rw [exec_statusRead]
    exact (frameHappening_readCommand hs hl rfl (d := s.statusData) rfl ps).trans
      (congrArg (fun d => Host.Outcome.next (s.framed .ok (s.readSent d ps.length))) (statusData_eq s))
  · rw [exec_timeRead]
    exact frameHappening_readCommand hs hl rfl (d := s.timeData) rfl ps
  · rw [exec_ringRead]
    exact (frameHappening_readCommand hs hl rfl (d := s.records.data) rfl ps).trans
      (congrArg (fun d => Host.Outcome.next (s.framed .ok (s.readSent d ps.length))) (ringData_eq s.records))

/-! ## The reads of a record by its number (O18) -/

/-- The number in a parameter byte (R185). -/
theorem paramNumber_numberByte (i : Fin 8) (ps : List Byte) : paramNumber (numberByte i :: ps) = some i := by
  have hfield : field (numberByte i :: ps) 0 1 = i.val := by
    have hi : i.val < 256 := by omega
    simp [field, numberByte, hi]
  simp [paramNumber, numberOf, hfield]

/-- A number above 7 is none (R185). -/
theorem paramNumber_above {n : Byte} (h : 7 < n.toNat) (ps : List Byte) : paramNumber (n :: ps) = none := by
  have hfield : field (n :: ps) 0 1 = n.toNat := by simp [field]
  rw [paramNumber, hfield, numberOf, dif_neg (by omega)]

/-- A whole frame of WINDOW READ or GROUP READ: the data of the number in host byte 1, and the result of the command's check. -/
theorem frameHappening_readNumber (hs : Settled s) (hl : LinkReady s) {c : Command} (hform : commandForm c.code = some (.read 1))
    (heffect : ∀ ps a, c.effect ps a = a) {n : Byte} {r : Result}
    (hcheck : ∀ a, c.check [n] a = if r = .ok then none else some r) (ps : List Byte) :
    frameHappening s c (.whole (n :: ps)) =
      .next (s.framed r (s.readSent ((s.snapshot c.code).data [n]) (ps.length + 1))) := by
  have hrun : c.run [n] (s.framed s.link.lastResult (s.readSent ((s.snapshot c.code).data [n]) (ps.length + 1))) =
      s.framed r (s.readSent ((s.snapshot c.code).data [n]) (ps.length + 1)) := by
    have hc := hcheck (s.framed s.link.lastResult (s.readSent ((s.snapshot c.code).data [n]) (ps.length + 1)))
    by_cases hr : r = .ok
    · rw [if_pos hr] at hc
      rw [Command.run_framed_of_accepted hc, heffect, hr]
    · rw [if_neg hr] at hc
      exact Command.run_framed_of_refused hc
  rw [frameHappening_of_running hl.1, Command.on, Command.whole_read_number c s hl hform, hrun,
    State.settle_of_settled _ _ (State.settled_framed hs _ _)]

/-- WINDOW READ's data, in the order of TABLE 11(d) (R100). -/
theorem windowData_eq (w : Window) :
    w.data = beBytes 1 w.enabled.toNat ++ beBytes 1 w.kind.code ++ beBytes 4 w.base.toNat ++ beBytes 4 w.size.toNat ++
      [numberByte w.group] ++ beBytes 1 w.readView.code ++ beBytes 1 w.fullPolicy.code ++ beBytes 1 w.watchOn.code ++
      beBytes 1 w.watchData.toNat := by
  rw [Window.data, beBytes_one w.group.val]
  rfl

/-- GROUP READ's data, in the order of TABLE 11(d) (R53). -/
theorem groupData_eq (x : Group) :
    x.data = beBytes 1 x.state.code ++ beBytes 1 x.trigger.code ++
      (match x.nextInstant with
        | none => [0, 0, 0, 0, 0, 0, 0]
        | some n => 1 :: beBytes 6 n.toNat) ++
      beBytes 4 x.period.toNat ++ beBytes 4 x.cycleOffset.toNat ++ beBytes 2 x.guardTicks.toNat ++ beBytes 2 x.quota ++
      (match x.marker with
        | none => [0, 0, 0, 0, 0]
        | some m => 1 :: beBytes 4 m.toNat) ++
      beBytes 1 x.reportCommits.toNat ++ beBytes 1 x.reportLates.toNat ++ beBytes 4 x.epoch.toNat ++
      beBytes 2 x.overrunCount ++ beBytes 2 x.lateCount ++ beBytes 1 x.returnState.code ++
      beBytes 6 x.epochInstant.toNat ++ beBytes 6 x.sealTime.toNat ++ beBytes 1 (faultStepCode x.faultStep) ++
      beBytes 4 x.faultAddr.toNat ++ beBytes 2 x.filling.length ++ beBytes 2 x.outgoing.length := by
  have hinstant : flagByte x.nextInstant.isSome ++ beBytes 6 (x.nextInstant.getD 0).toNat = (match x.nextInstant with
      | none => [0, 0, 0, 0, 0, 0, 0]
      | some n => 1 :: beBytes 6 n.toNat) := by
    cases x.nextInstant with
    | none => simp [flagByte, beBytes]
    | some n => simp [flagByte, beBytes_one]
  have hmarker : flagByte x.marker.isSome ++ beBytes 4 (x.marker.getD 0).toNat = (match x.marker with
      | none => [0, 0, 0, 0, 0]
      | some m => 1 :: beBytes 4 m.toNat) := by
    cases x.marker with
    | none => simp [flagByte, beBytes]
    | some m => simp [flagByte, beBytes_one]
  have hflag : ∀ b : Bool, beBytes 1 b.toNat = flagByte b := fun _ => rfl
  rw [← hinstant, ← hmarker, hflag, hflag]
  generalize hL : x.data = bytes
  unfold Group.data at hL
  simp only [List.append_assoc] at hL ⊢
  exact hL.symm

/-- Settles O18. -/
theorem windowAndGroupReads : Obligations.WindowAndGroupReads := by
  intro s ps hs hl
  refine ⟨fun i => ?_, fun g => ?_, fun n hn => ⟨?_, ?_⟩⟩
  · have hdata : (s.snapshot windowReadCommand.code).data [numberByte i] = (s.windows.get i).data := by
      have hnumber := paramNumber_numberByte i []
      rw [paramNumber] at hnumber
      simp only [show s.snapshot windowReadCommand.code = .windows s.windows from rfl, Snapshot.data, hnumber, Option.map_some,
        Option.getD_some]
    rw [exec_windowRead, frameHappening_readNumber hs hl rfl (fun _ _ => rfl) (r := .ok)
      (fun a => by simp [windowReadCommand, checkWindowRead, paramNumber_numberByte]) ps, hdata]
    exact congrArg (fun d => Host.Outcome.next (s.framed .ok (s.readSent d (ps.length + 1)))) (windowData_eq _)
  · have hdata : (s.snapshot groupReadCommand.code).data [numberByte g] = (s.groups.get g).data := by
      have hnumber := paramNumber_numberByte g []
      rw [paramNumber] at hnumber
      simp only [show s.snapshot groupReadCommand.code = .groups s.groups from rfl, Snapshot.data, hnumber, Option.map_some,
        Option.getD_some]
    rw [exec_groupRead, frameHappening_readNumber hs hl rfl (fun _ _ => rfl) (r := .ok)
      (fun a => by simp [groupReadCommand, checkGroupRead, checkGroup, paramNumber_numberByte]) ps, hdata]
    exact congrArg (fun d => Host.Outcome.next (s.framed .ok (s.readSent d (ps.length + 1)))) (groupData_eq _)
  · have hnumber := paramNumber_above hn []
    have hdata : (s.snapshot windowReadCommand.code).data [n] = [] := by
      rw [paramNumber] at hnumber
      simp only [show s.snapshot windowReadCommand.code = .windows s.windows from rfl, Snapshot.data, hnumber, Option.map_none,
        Option.getD_none]
    rw [exec_windowRead, frameHappening_readNumber hs hl rfl (fun _ _ => rfl) (r := .param)
      (fun a => by simp [windowReadCommand, checkWindowRead, hnumber]) ps, hdata]
  · have hnumber := paramNumber_above hn []
    have hdata : (s.snapshot groupReadCommand.code).data [n] = [] := by
      rw [paramNumber] at hnumber
      simp only [show s.snapshot groupReadCommand.code = .groups s.groups from rfl, Snapshot.data, hnumber, Option.map_none,
        Option.getD_none]
    rw [exec_groupRead, frameHappening_readNumber hs hl rfl (fun _ _ => rfl) (r := .param)
      (fun a => by simp [groupReadCommand, checkGroupRead, checkGroup, hnumber]) ps, hdata]

end Sys2Proof.Machine
end

section
/-! PROOF. The parameter bytes of the write commands, and the commands whose effect makes nothing due: MODE SET without a flush
(O20), TICK SET and CYCLE SET (O24), TIME SET that passes over no point (O25), and a group number above 7 (O32). -/

namespace Sys2Proof.Machine

/-! ## Values out of parameter bytes (R195) -/

theorem beBytes_length (n v : Nat) : (beBytes n v).length = n := by
  induction n with
  | zero => rfl
  | succ n ih => simp [beBytes, ih]

theorem beNat_cons (b : Byte) (bs : List Byte) : beNat (b :: bs) = b.toNat * 256 ^ bs.length + beNat bs := by
  have hacc : ∀ (l : List Byte) (a : Nat), l.foldl (fun acc b => acc * 256 + b.toNat) a = a * 256 ^ l.length + beNat l := by
    intro l
    induction l with
    | nil => simp [beNat]
    | cons c l ih =>
      intro a
      have hc : beNat (c :: l) = c.toNat * 256 ^ l.length + beNat l := by
        rw [← ih, beNat, List.foldl_cons, Nat.zero_mul, Nat.zero_add]
      rw [List.foldl_cons, ih, hc, List.length_cons, pow_succ]
      ring
  exact (hacc bs _).trans (by simp)

/-- The bytes of a value give it back as far as they reach. -/
theorem beNat_beBytes (n v : Nat) : beNat (beBytes n v) = v % 256 ^ n := by
  induction n with
  | zero => simp [beBytes, beNat, Nat.mod_one]
  | succ n ih =>
    rw [beBytes, beNat_cons, beBytes_length, ih, BitVec.toNat_ofNat, pow_succ 256 n, Nat.mod_mul (x := v), Nat.add_comm, Nat.mul_comm]

theorem field_here {l : List Byte} {n : Nat} (h : l.length = n) (rest : List Byte) : field (l ++ rest) 0 n = beNat l := by
  rw [field, List.drop_zero, List.take_left' h]

theorem field_past {l : List Byte} {off : Nat} (h : l.length ≤ off) (rest : List Byte) (len : Nat) :
    field (l ++ rest) off len = field rest (off - l.length) len := by
  rw [field, field, List.drop_append, List.drop_of_length_le h, List.nil_append]

/-- The value in the place where its bytes stand. -/
@[simp] theorem field_beBytes (n v : Nat) (rest : List Byte) : field (beBytes n v ++ rest) 0 n = v % 256 ^ n := by
  rw [field_here (beBytes_length n v), beNat_beBytes]

@[simp] theorem field_beBytes_only (n v : Nat) : field (beBytes n v) 0 n = v % 256 ^ n := by
  simpa using field_beBytes n v []

@[simp] theorem field_beBytes_past {n off : Nat} (h : n ≤ off) (v : Nat) (rest : List Byte) (len : Nat) :
    field (beBytes n v ++ rest) off len = field rest (off - n) len := by
  rw [field_past (by rwa [beBytes_length]), beBytes_length]

@[simp] theorem field_cons (b : Byte) (rest : List Byte) : field (b :: rest) 0 1 = b.toNat := by simp [field]

@[simp] theorem field_cons_past {off : Nat} (h : 1 ≤ off) (b : Byte) (rest : List Byte) (len : Nat) :
    field (b :: rest) off len = field rest (off - 1) len := field_past (l := [b]) h rest len

theorem numberByte_toNat (i : Fin 8) : (numberByte i).toNat = i.val := by
  have hi : i.val < 256 := by omega
  simp [numberByte, hi]

@[simp] theorem numberOf_numberByte (i : Fin 8) : numberOf (numberByte i).toNat = some i := by
  simp [numberByte_toNat, numberOf]

theorem yesNo_eq_none_iff (n : Nat) : yesNo n = none ↔ 2 ≤ n := by
  match n with
  | 0 => simp [yesNo]
  | 1 => simp [yesNo]
  | n + 2 => simp [yesNo]

/-! ## A write command that makes nothing due -/

section Write

variable {s : State} {c : Command}

/-- A whole frame of a write command whose effect makes nothing due: the effect, and no more (R183 step 6). -/
theorem frameHappening_write_calm (hl : LinkReady s) {ps : List Byte} {t : State} (hform : commandForm c.code = some (.write ps.length))
    (hcheck : c.check ps (s.framed s.link.lastResult (s.writeSent ps.length)) = none)
    (heffect : c.effect ps (s.framed .ok (s.writeSent ps.length)) = t) (ht : Settled t) :
    frameHappening s c (.whole ps) = .next t := by
  rw [frameHappening_write_accepted hl hform hcheck, heffect, State.settle_of_settled _ _ ht]

/-- What is due does not depend on the timebase. -/
theorem Settled.setTimebase (h : Settled s) (t : Timebase) : Settled (s.setTimebase t) :=
  ⟨h.1.congr rfl rfl rfl rfl rfl rfl, h.2⟩

end Write

/-! ## A group number above 7 (O32) -/

theorem checkGroup_above {n : Byte} (h : 7 < n.toNat) (ps : List Byte) (check : GroupNum → Option Result) :
    checkGroup (n :: ps) check = some .param := by
  rw [checkGroup, paramNumber_above h]

theorem checkGroup_numberByte (g : GroupNum) (ps : List Byte) (check : GroupNum → Option Result) :
    checkGroup (numberByte g :: ps) check = check g := by
  rw [checkGroup, paramNumber_numberByte]

theorem onGroup_numberByte (g : GroupNum) (ps : List Byte) (s : State) (f : GroupNum → State) :
    onGroup (numberByte g :: ps) s f = f g := by
  rw [onGroup, paramNumber_numberByte]

/-- Each write command of a group is a link command that refuses a number above 7 first (R41). -/
theorem command_of_groupWrite {p : Nat × (FrameEvent → Instr)} (hp : p ∈ groupWriteCommands) :
    ∃ c : Command, commandForm c.code = some (.write p.1) ∧ (∀ ev s, exec (p.2 ev) s = frameHappening s c ev) ∧
      ∀ (n : Byte) (ps : List Byte) (a : State), 7 < n.toNat → c.check (n :: ps) a = some .param := by
  have hset : ∀ (n : Byte) (ps : List Byte) (a : State), 7 < n.toNat → checkGroupSet (n :: ps) a = some .param := by
    intro n ps a hn
    have hnumber : (GroupParams.parse (n :: ps)).number = none := paramNumber_above hn ps
    simp only [checkGroupSet, hnumber]
  simp only [groupWriteCommands, List.mem_cons, List.not_mem_nil, or_false] at hp
  rcases hp with rfl | rfl | rfl | rfl | rfl | rfl | rfl | rfl
  · exact ⟨groupSetCommand, rfl, fun _ _ => rfl, hset⟩
  · exact ⟨groupArmCommand, rfl, fun _ _ => rfl, fun _ ps _ h => checkGroup_above h ps _⟩
  · exact ⟨groupDisarmCommand, rfl, fun _ _ => rfl, fun _ ps _ h => checkGroup_above h ps _⟩
  · exact ⟨groupCommitNowCommand, rfl, fun _ _ => rfl, fun _ ps _ h => checkGroup_above h ps _⟩
  · exact ⟨groupDiscardCommand, rfl, fun _ _ => rfl, fun _ ps _ h => checkGroup_above h ps _⟩
  · exact ⟨groupOffCommand, rfl, fun _ _ => rfl, fun _ ps _ h => checkGroup_above h ps _⟩
  · exact ⟨groupRetryCommand, rfl, fun _ _ => rfl, fun _ ps _ h => checkGroup_above h ps _⟩
  · exact ⟨groupAbandonCommand, rfl, fun _ _ => rfl, fun _ ps _ h => checkGroup_above h ps _⟩

/-- Settles O32. -/
theorem groupNumberAboveSevenIsRefused : Obligations.GroupNumberAboveSevenIsRefused := by
  intro s p n ps hp hs hl hn hlen
  obtain ⟨c, hform, hexec, hcheck⟩ := command_of_groupWrite hp
  have hlength : (n :: ps).length = p.1 := hlen
  rw [hexec, ← hlength]
  exact frameHappening_write_refused hs hl (by rw [hform, hlength]) (hcheck n ps _ hn)

/-! ## MODE SET without a flush (O20) -/

theorem exec_modeSet (ev : FrameEvent) (s : State) : exec (.modeSet ev) s = frameHappening s modeSetCommand ev := rfl

theorem wantsActive_of_two_le {m : Byte} (h : 2 ≤ m.toNat) : wantsActive [m] = none := by
  rw [wantsActive, field_cons]
  split
  · omega
  · omega
  · rfl

/-- The refusals of MODE SET with a defined mode (R164). -/
theorem checkModeSet_zero (a : State) : checkModeSet [0] a = none := rfl

theorem checkModeSet_one (a : State) : checkModeSet [1] a = if a.mode = .quiescing then some .state else none := by
  simp [checkModeSet, wantsActive, field]

/-- MODE SET BYPASS goes to BYPASS at once where every group is OFF, OPEN or ARMED with empty lists (R164). -/
theorem bypassAtOnce_of_groups {s : State} (h : ∀ g, (s.group g).occupancy = 0 ∧
    ((s.group g).state = .off ∨ (s.group g).state = .opened ∨ (s.group g).state = .armed)) : s.bypassAtOnce = true := by
  simp only [State.bypassAtOnce, State.storeEmpty, Bool.and_eq_true, List.all_eq_true, Table8.mem_toList_iff, List.isEmpty_iff]
  refine ⟨?_, ?_⟩
  · rintro x ⟨g, rfl⟩
    have hocc : (s.group g).filling.length + (s.group g).outgoing.length = 0 := (h g).1
    exact ⟨List.length_eq_zero_iff.mp (Nat.eq_zero_of_add_eq_zero_right hocc), List.length_eq_zero_iff.mp (Nat.eq_zero_of_add_eq_zero_left hocc)⟩
  · rintro x ⟨g, rfl⟩
    show (s.group g).notBeyondArmed = true
    rcases (h g).2 with h | h | h <;> simp [Group.notBeyondArmed, h]

/-- Settles O20: by the code, the mode and, from ACTIVE to BYPASS, the groups. -/
theorem modeSetWithoutAFlush : Obligations.ModeSetWithoutAFlush := by
  intro s m hs hl
  have hsettled := State.settled_framed hs .ok (s.writeSent 1)
  have hsame : ∀ b : Byte, checkModeSet [b] (s.framed s.link.lastResult (s.writeSent 1)) = none →
      effectModeSet [b] (s.framed .ok (s.writeSent 1)) = s.framed .ok (s.writeSent 1) →
      exec (.modeSet (.whole [b])) s = .next (s.framed .ok (s.writeSent 1)) := fun b hcheck heffect =>
    frameHappening_write_calm hl rfl hcheck heffect hsettled
  have hone : s.mode ≠ .quiescing → checkModeSet [1] (s.framed s.link.lastResult (s.writeSent 1)) = none := fun h =>
    (checkModeSet_one _).trans (if_neg h)
  refine ⟨fun hm => ?_, fun hmode => ⟨?_, ?_⟩, fun hmode => ⟨?_, ?_⟩, fun hmode => ⟨?_, fun hgroups => ?_⟩⟩
  · refine frameHappening_write_refused hs hl (r := .param) rfl ?_
    show checkModeSet [m] _ = _
    rw [checkModeSet, wantsActive_of_two_le hm]
  · refine frameHappening_write_calm hl rfl (hone (by rw [hmode]; decide)) ?_
      ⟨hsettled.1.of_open_mode hl.2.1 (by simp) (by simp) rfl rfl rfl rfl, hsettled.2⟩
    have heffect : effectModeSet [1] (s.framed .ok (s.writeSent 1)) = (s.framed .ok (s.writeSent 1)).setMode .active := by
      simp [effectModeSet, wantsActive, field, State.framed, State.framedBits, hmode]
    exact heffect
  · exact hsame 0 rfl (by simp [effectModeSet, wantsActive, field, State.framed, State.framedBits, hmode])
  · exact frameHappening_write_refused hs hl rfl ((checkModeSet_one _).trans (if_pos hmode))
  · exact hsame 0 rfl (by simp [effectModeSet, wantsActive, field, State.framed, State.framedBits, hmode])
  · exact hsame 1 (hone (by rw [hmode]; decide))
      (by simp [effectModeSet, wantsActive, field, State.framed, State.framedBits, hmode])
  · refine frameHappening_write_calm hl rfl rfl ?_
      ⟨hsettled.1.of_open_mode hl.2.1 (by simp) (by simp) rfl rfl rfl rfl, hsettled.2⟩
    have hatOnce : (s.framed .ok (s.writeSent 1)).bypassAtOnce = true := bypassAtOnce_of_groups hgroups
    have heffect : effectModeSet [0] (s.framed .ok (s.writeSent 1)) =
        ((s.framed .ok (s.writeSent 1)).setMode .bypass).disarmAll := by
      simp only [effectModeSet, show wantsActive [0] = some false from rfl,
        show (s.framed .ok (s.writeSent 1)).mode = .active from hmode, if_pos hatOnce]
    exact heffect

/-! ## TICK SET and CYCLE SET (O24) -/

theorem exec_tickSet (ev : FrameEvent) (s : State) : exec (.tickSet ev) s = frameHappening s tickSetCommand ev := rfl
theorem exec_cycleSet (ev : FrameEvent) (s : State) : exec (.cycleSet ev) s = frameHappening s cycleSetCommand ev := rfl
theorem exec_timeSet (ev : FrameEvent) (s : State) : exec (.timeSet ev) s = frameHappening s timeSetCommand ev := rfl

/-- TICK SET's parameters out of its bytes. -/
theorem tickParams_parse (d : BitVec 16) (f : Byte) (h : BitVec 16) :
    TickParams.parse (beBytes 2 d.toNat ++ [f] ++ beBytes 2 h.toNat) =
      { divisorField := d.toNat, freezeEnable := yesNo f.toNat, holdLimit := h.toNat } := by
  have hd : d.toNat % 65536 = d.toNat := Nat.mod_eq_of_lt d.isLt
  have hh : h.toNat % 65536 = h.toNat := Nat.mod_eq_of_lt h.isLt
  simp [TickParams.parse, hd, hh]

/-- CYCLE SET's parameters out of its bytes. -/
theorem cycleParams_parse (l : BitVec 32) (e : Byte) :
    CycleParams.parse (beBytes 4 l.toNat ++ [e]) = { length := l.toNat, edge := syncSelectOf e.toNat } := by
  have hlen : l.toNat % 4294967296 = l.toNat := Nat.mod_eq_of_lt l.isLt
  simp [CycleParams.parse, hlen]

theorem syncSelectOf_byte (e : Byte) : syncSelectOf e.toNat =
    if 4 ≤ e.toNat then none
    else some (if e = 0 then .none else if e = 1 then .rise else if e = 2 then .fall else .both) := by
  revert e; decide

theorem cycleInHand_iff (x : Group) : x.cycleInHand = true ↔
    x.trigger = .cycle ∧ (x.state = .armed ∨ x.state = .sealed ∨ x.state = .queued) := by
  rw [Group.cycleInHand, Bool.and_eq_true, beq_iff_eq]
  cases x.state <;> simp

/-- The refusals of CYCLE SET on its length and its edge code (R91). -/
theorem checkCycleSet_eq (l : BitVec 32) (e : Byte) (a : State) :
    checkCycleSet (beBytes 4 l.toNat ++ [e]) a =
      if l.toNat < 2 ∨ 4 ≤ e.toNat then some .param
      else if a.groups.toList.any Group.cycleInHand then some .state
      else if a.groups.toList.any (fun x => x.offsetBeyond l.toNat) then some .param
      else none := by
  have hedge : (syncSelectOf e.toNat).isNone = true ↔ 4 ≤ e.toNat := by
    rw [syncSelectOf_byte]
    split <;> simp_all
  simp only [checkCycleSet, cycleParams_parse, hedge]

/-- Settles O24: the commands' checks in their order, and effects on the timebase alone. -/
theorem tickSetAndCycleSetWriteTheirFields : Obligations.TickSetAndCycleSetWriteTheirFields := by
  intro s hs hl
  have hsettled := State.settled_framed hs .ok (s.writeSent 5)
  refine ⟨fun d f h => ?_, fun l e => ?_⟩
  · have hcheck : checkTickSet (beBytes 2 d.toNat ++ [f] ++ beBytes 2 h.toNat) (s.framed s.link.lastResult (s.writeSent 5)) =
        if 2 ≤ f.toNat then some .param else none := by
      simp only [checkTickSet, tickParams_parse, Option.isNone_iff_eq_none, yesNo_eq_none_iff]
    rw [exec_tickSet]
    split
    case isTrue hbad => exact frameHappening_write_refused hs hl rfl (hcheck.trans (if_pos hbad))
    case isFalse hgood =>
      have hfreeze : ∀ b, (yesNo f.toNat).getD b = (f == 1) := by
        have hall : ∀ f : Byte, f.toNat < 2 → yesNo f.toNat = some (f == 1) := by decide
        simp [hall f (by omega)]
      have hzero : d.toNat = 0 ↔ d = 0 := (BitVec.toNat_inj (y := 0#16) (x := d))
      refine frameHappening_write_calm hl rfl (hcheck.trans (if_neg hgood)) ?_ (hsettled.setTimebase _)
      show effectTickSet _ _ = _
      simp only [effectTickSet, tickParams_parse, hfreeze, divisorOf, hzero]
      rfl
  · have hstate : (s.groups.toList.any Group.cycleInHand = true) ↔ ∃ g, (s.group g).trigger = .cycle ∧
        ((s.group g).state = .armed ∨ (s.group g).state = .sealed ∨ (s.group g).state = .queued) := by
      simp only [Table8.any_toList_iff, cycleInHand_iff]
      rfl
    have hoffset : (s.groups.toList.any (fun x => x.offsetBeyond l.toNat) = true) ↔ ∃ g, (s.group g).trigger = .cycle ∧
        (s.group g).state ≠ .off ∧ l.toNat ≤ (s.group g).cycleOffset.toNat := by
      simp only [Table8.any_toList_iff, Group.offsetBeyond, Bool.and_eq_true, beq_iff_eq, bne_iff_ne, decide_eq_true_eq, and_assoc]
      rfl
    have hcheck := checkCycleSet_eq l e (s.framed s.link.lastResult (s.writeSent 5))
    rw [exec_cycleSet]
    split
    case isTrue hbad => exact frameHappening_write_refused hs hl rfl (hcheck.trans (if_pos hbad))
    case isFalse hgood =>
      replace hcheck := hcheck.trans (if_neg hgood)
      split
      case isTrue hhand => exact frameHappening_write_refused hs hl rfl (hcheck.trans (if_pos (hstate.mpr hhand)))
      case isFalse hfree =>
        replace hcheck := hcheck.trans (if_neg (mt hstate.mp hfree))
        split
        case isTrue hbeyond => exact frameHappening_write_refused hs hl rfl (hcheck.trans (if_pos (hoffset.mpr hbeyond)))
        case isFalse hwithin =>
          refine frameHappening_write_calm hl rfl (hcheck.trans (if_neg (mt hoffset.mp hwithin))) ?_ (hsettled.setTimebase _)
          have hedge : ¬ 4 ≤ e.toNat := fun h => hgood (.inr h)
          show effectCycleSet _ _ = _
          simp only [effectCycleSet, cycleParams_parse, syncSelectOf_byte, if_neg hedge, Option.getD_some]
          rfl

/-! ## TIME SET that passes over no point (O25) -/

/-- TIME SET's value out of its bytes. -/
theorem timeSet_value (t1 : Time) : BitVec.ofNat 48 (field (beBytes 6 t1.toNat) 0 6) = t1 := by
  have hmod : t1.toNat % 256 ^ 6 = t1.toNat := Nat.mod_eq_of_lt t1.isLt
  rw [field_beBytes_only, hmod, BitVec.ofNat_toNat, BitVec.setWidth_eq]

theorem forGroups_eq_self {s : State} {f : GroupNum → State → State} (h : ∀ g, f g s = s) : s.forGroups f = s :=
  s.forGroups_induct (fun a => a = s) f rfl (fun _ g ha => ha ▸ h g)

/-- A group of which a move of TIME passes over no point stays as it is (R38). -/
theorem jumpGroup_of_not_passed {s : State} {g : GroupNum} {t0 t1 : Time}
    (h : ∀ n, (s.group g).nextInstant = some n → (s.group g).trigger = .manual ∨ (s.group g).trigger = .cycle ∨
      (passedOver t0 t1 ((s.group g).sealPointOf n) = false ∧ passedOver t0 t1 n = false)) : s.jumpGroup t0 t1 g = s := by
  unfold State.jumpGroup
  split
  case isFalse => rfl
  case isTrue htimed =>
    have hpassed : ∀ n, (s.group g).nextInstant = some n →
        passedOver t0 t1 ((s.group g).sealPointOf n) = false ∧ passedOver t0 t1 n = false := by
      intro n hn
      rcases h n hn with h | h | h
      · simp [Trigger.timed, h] at htimed
      · simp [Trigger.timed, h] at htimed
      · exact h
    have hseal : (s.group g).sealPassed t0 t1 = false := by
      cases hn : (s.group g).nextInstant with
      | none => simp [Group.sealPassed, hn]
      | some n => simp [Group.sealPassed, hn, (hpassed n hn).1]
    have hcommit : (s.group g).commitPassed t0 t1 = false := by
      cases hn : (s.group g).nextInstant with
      | none => simp [Group.commitPassed, hn]
      | some n => simp [Group.commitPassed, hn, (hpassed n hn).2]
    have hjump : s.jumpOverrun g t0 t1 = s := by
      unfold State.jumpOverrun
      cases hn : (s.group g).nextInstant with
      | none => simp [hn]
      | some n => simp [hn, (hpassed n hn).1]
    rw [State.jumpSeal, if_neg (by simp [hseal]), State.jumpCommit, if_neg (by simp [hcommit]), hjump]

/-- Settles O25. -/
theorem timeSetWritesTime : Obligations.TimeSetWritesTime := by
  intro s t1 hs hl
  have hsettled := State.settled_framed hs .ok (s.writeSent 6)
  rw [exec_timeSet]
  refine ⟨fun hfrozen => frameHappening_write_refused hs hl rfl (if_pos hfrozen), fun hfree hquiet => ?_⟩
  refine frameHappening_write_calm hl rfl (if_neg (by simp [State.framed, State.framedBits, hfree])) ?_ (hsettled.setTimebase _)
  show effectTimeSet _ _ = _
  rw [effectTimeSet, timeSet_value, State.moveTime]
  split
  case isFalse => rfl
  case isTrue hmove =>
    have hforward : 1 ≤ (t1 - s.time).toNat ∧ (t1 - s.time).toNat < 2 ^ 47 := of_decide_eq_true hmove.2
    refine forGroups_eq_self (fun g => jumpGroup_of_not_passed (fun n hn => ?_))
    rcases hquiet with h | h | h | h
    · exact absurd hmove.1 h
    · omega
    · omega
    · exact h g n hn

end Sys2Proof.Machine
end

section
/-! PROOF. WINDOW SET (O31): its parameters out of its bytes, its refusals in their order, and the record written. -/

namespace Sys2Proof.Machine

/-! ## Codes and numbers out of their bytes (TABLE 11(b), TABLE 11(c)) -/

@[simp] theorem yesNo_toNat (b : Bool) : yesNo b.toNat = some b := by cases b <;> rfl
@[simp] theorem windowKindOf_code (k : WindowKind) : windowKindOf k.code = some k := by cases k <;> rfl
@[simp] theorem readViewOf_code (v : ReadView) : readViewOf v.code = some v := by cases v <;> rfl
@[simp] theorem fullPolicyOf_code (p : FullPolicy) : fullPolicyOf p.code = some p := by cases p <;> rfl
@[simp] theorem watchOnOf_code (w : WatchOn) : watchOnOf w.code = some w := by cases w <;> rfl
@[simp] theorem triggerOf_code (t : Trigger) : triggerOf t.code = some t := by cases t <;> rfl
@[simp] theorem numberOf_val (i : Fin 8) : numberOf i.val = some i := by simp [numberOf]

theorem bool_toNat_lt (b : Bool) : b.toNat < 256 := by cases b <;> decide
theorem windowKind_code_lt (k : WindowKind) : k.code < 256 := by cases k <;> decide
theorem readView_code_lt (v : ReadView) : v.code < 256 := by cases v <;> decide
theorem fullPolicy_code_lt (p : FullPolicy) : p.code < 256 := by cases p <;> decide
theorem watchOn_code_lt (w : WatchOn) : w.code < 256 := by cases w <;> decide
theorem trigger_code_lt (t : Trigger) : t.code < 256 := by cases t <;> decide

theorem windowKindOf_eq_none_iff (n : Nat) : windowKindOf n = none ↔ 2 ≤ n := by
  match n with
  | 0 | 1 | n + 2 => simp [windowKindOf]

theorem readViewOf_eq_none_iff (n : Nat) : readViewOf n = none ↔ 2 ≤ n := by
  match n with
  | 0 | 1 | n + 2 => simp [readViewOf]

theorem fullPolicyOf_eq_none_iff (n : Nat) : fullPolicyOf n = none ↔ 2 ≤ n := by
  match n with
  | 0 | 1 | n + 2 => simp [fullPolicyOf]

theorem watchOnOf_eq_none_iff (n : Nat) : watchOnOf n = none ↔ 3 ≤ n := by
  match n with
  | 0 | 1 | 2 | n + 3 => simp [watchOnOf]

theorem triggerOf_eq_none_iff (n : Nat) : triggerOf n = none ↔ 4 ≤ n := by
  match n with
  | 0 | 1 | 2 | 3 | n + 4 => simp [triggerOf]

theorem numberOf_eq_none_iff (n : Nat) : numberOf n = none ↔ 8 ≤ n := by
  simp [numberOf]

/-! ## Ranges of bytes (R98) -/

/-- Two ranges meet exactly where a byte lies in both. -/
theorem rangesMeet_iff (a m b n : Nat) : rangesMeet a m b n = true ↔ ∃ z, (a ≤ z ∧ z < a + m) ∧ b ≤ z ∧ z < b + n := by
  rw [rangesMeet, decide_eq_true_eq]
  constructor
  · rintro ⟨hm, hn, ha, hb⟩
    exact ⟨max a b, by omega, by omega⟩
  · rintro ⟨z, ha, hb⟩
    omega

/-! ## WINDOW SET (R96 to R99) -/

theorem exec_windowSet (ev : FrameEvent) (s : State) : exec (.windowSet ev) s = frameHappening s windowSetCommand ev := rfl

/-- WINDOW SET's parameters out of the bytes of a window record. -/
theorem windowParams_parse (i : WindowNum) (w : Window) :
    WindowParams.parse (numberByte i :: w.data) =
      { number := some i, enabled := some w.enabled, kind := some w.kind, base := w.base.toNat, size := w.size.toNat
        group := some w.group, readView := some w.readView, fullPolicy := some w.fullPolicy, watchOn := some w.watchOn
        watchData := some w.watchData } := by
  have hbase : w.base.toNat % 4294967296 = w.base.toNat := Nat.mod_eq_of_lt w.base.isLt
  have hsize : w.size.toNat % 4294967296 = w.size.toNat := Nat.mod_eq_of_lt w.size.isLt
  have hgroup : w.group.val % 256 = w.group.val := Nat.mod_eq_of_lt (by omega)
  simp [WindowParams.parse, Window.data, flagByte, hbase, hsize, hgroup, Nat.mod_eq_of_lt (bool_toNat_lt _),
    Nat.mod_eq_of_lt (windowKind_code_lt _), Nat.mod_eq_of_lt (readView_code_lt _),
    Nat.mod_eq_of_lt (fullPolicy_code_lt _), Nat.mod_eq_of_lt (watchOn_code_lt _)]

theorem windowParams_window (i : WindowNum) (w : Window) : (WindowParams.parse (numberByte i :: w.data)).window = some w := by
  simp [windowParams_parse, WindowParams.window]

/-- The mode accepts WINDOW SET, on a device that is not in RESETTING (R97). -/
theorem acceptsWindowSet_iff {s : State} (h : s.mode ≠ .resetting) (w : Window) :
    s.acceptsWindowSet w = false ↔
      s.mode = .quiescing ∨ (s.mode = .active ∧ w.enabled = true ∧ w.kind = .stage ∧ (s.group w.group).state ≠ .off) := by
  have hkind : w.kind ≠ .watch ↔ w.kind = .stage := by cases w.kind <;> simp
  cases hmode : s.mode with
  | bypass => simp [State.acceptsWindowSet, hmode]
  | active => simp [State.acceptsWindowSet, hmode, and_assoc, ← hkind]
  | quiescing => simp [State.acceptsWindowSet, hmode]
  | resetting => exact absurd hmode h

/-- The refusals of WINDOW SET on a window's record (R96). -/
theorem checkWindowSet_data (i : WindowNum) (w : Window) (a : State) :
    checkWindowSet (numberByte i :: w.data) a =
      if a.acceptsWindowSet (a.windows.get i) = false then some .state
      else if w.base.toNat % 64 ≠ 0 ∨ w.size.toNat = 0 ∨ w.size.toNat % 64 ≠ 0 ∨ 67108864 < w.size.toNat ∨
          2 ^ 32 < w.base.toNat + w.size.toNat then some .param
      else if w.enabled = true ∧ a.windowConflict i w.base.toNat w.size.toNat = true then some .conflict
      else none := by
  have hrange : (!(WindowParams.parse (numberByte i :: w.data)).rangeOk) = true ↔
      (w.base.toNat % 64 ≠ 0 ∨ w.size.toNat = 0 ∨ w.size.toNat % 64 ≠ 0 ∨ 67108864 < w.size.toNat ∨
        2 ^ 32 < w.base.toNat + w.size.toNat) := by
    have hmax : decide (w.size.toNat ≤ windowSizeMax) = false ↔ 67108864 < w.size.toNat := by
      rw [decide_eq_false_iff_not, Nat.not_le]; rfl
    rw [windowParams_parse]
    simp only [WindowParams.rangeOk, hmax, Bool.not_eq_true', Bool.and_eq_false_iff, beq_eq_false_iff_ne,
      bne_eq_false_iff_eq, decide_eq_false_iff_not, Nat.not_le, or_assoc]
  simp only [checkWindowSet, windowParams_window, hrange]
  simp only [windowParams_parse, Bool.not_eq_true', Bool.and_eq_true]

/-- CONFLICT, byte by byte (R98). -/
theorem windowConflict_iff (s : State) (i : WindowNum) (base size : Nat) :
    s.windowConflict i base size = true ↔
      (∃ j z, j ≠ i ∧ (s.windows.get j).enabled = true ∧ (base ≤ z ∧ z < base + size) ∧ (s.windows.get j).base.toNat ≤ z ∧
          z < (s.windows.get j).base.toNat + (s.windows.get j).size.toNat) ∨
        (s.records.enabled = true ∧ ∃ z, (base ≤ z ∧ z < base + size) ∧
          ((s.records.base.toNat ≤ z ∧ z < s.records.base.toNat + 32 * s.records.capacity) ∨
            (s.records.headAddr.toNat ≤ z ∧ z < s.records.headAddr.toNat + 4) ∨
            (s.records.tailAddr.toNat ≤ z ∧ z < s.records.tailAddr.toNat + 4))) ∨
        (∃ g m, (s.group g).state ≠ .off ∧ (s.group g).marker = some m ∧ base ≤ m.toNat ∧ m.toNat < base + size) := by
  have hwindows : allGroups.any (fun j => j != i && (s.windows.get j).meets base size) = true ↔
      ∃ j z, j ≠ i ∧ (s.windows.get j).enabled = true ∧ (base ≤ z ∧ z < base + size) ∧ (s.windows.get j).base.toNat ≤ z ∧
        z < (s.windows.get j).base.toNat + (s.windows.get j).size.toNat := by
    simp only [List.any_eq_true, mem_allGroups, true_and, Bool.and_eq_true, bne_iff_ne, Window.meets, rangesMeet_iff,
      exists_and_left]
  have hring : s.records.meetsRange base size = true ↔ s.records.enabled = true ∧ ∃ z, (base ≤ z ∧ z < base + size) ∧
      ((s.records.base.toNat ≤ z ∧ z < s.records.base.toNat + 32 * s.records.capacity) ∨
        (s.records.headAddr.toNat ≤ z ∧ z < s.records.headAddr.toNat + 4) ∨
        (s.records.tailAddr.toNat ≤ z ∧ z < s.records.tailAddr.toNat + 4)) := by
    simp only [RecordUnit.meetsRange, Bool.and_eq_true, Bool.or_eq_true, rangesMeet_iff, and_or_left, exists_or, or_assoc]
    rfl
  have hmarkers : s.groups.toList.any (fun x => x.markerIn base size) = true ↔
      ∃ g m, (s.group g).state ≠ .off ∧ (s.group g).marker = some m ∧ base ≤ m.toNat ∧ m.toNat < base + size := by
    simp only [Table8.any_toList_iff, Group.markerIn, Bool.and_eq_true, bne_iff_ne, Option.any_eq_true, inRange,
      decide_eq_true_eq, exists_and_left]
    rfl
  simp only [State.windowConflict, Bool.or_eq_true, hwindows, hring, hmarkers, or_assoc]

/-- WINDOW SET's parameters out of bytes with an undefined code: there is no record (R96). -/
theorem windowParams_undefined (i : WindowNum) (b1 b2 b11 b12 b13 b14 b15 : Byte) (base size : BitVec 32)
    (h : 2 ≤ b1.toNat ∨ 2 ≤ b2.toNat ∨ 8 ≤ b11.toNat ∨ 2 ≤ b12.toNat ∨ 2 ≤ b13.toNat ∨ 3 ≤ b14.toNat ∨ 2 ≤ b15.toNat) :
    (WindowParams.parse ([numberByte i, b1, b2] ++ beBytes 4 base.toNat ++ beBytes 4 size.toNat ++
        [b11, b12, b13, b14, b15])).number = some i ∧
      (WindowParams.parse ([numberByte i, b1, b2] ++ beBytes 4 base.toNat ++ beBytes 4 size.toNat ++
        [b11, b12, b13, b14, b15])).window = none := by
  refine ⟨by simp [WindowParams.parse], ?_⟩
  rw [Option.eq_none_iff_forall_ne_some]
  intro w hw
  simp only [WindowParams.window, WindowParams.parse, Option.bind_eq_bind, Option.bind_eq_some_iff, Option.pure_def,
    Option.some.injEq] at hw
  obtain ⟨_, henabled, _, hkind, _, hgroup, _, hview, _, hpolicy, _, hwatch, _, hdata, -⟩ := hw
  simp at henabled hkind hgroup hview hpolicy hwatch hdata
  rcases h with h | h | h | h | h | h | h
  · rw [(yesNo_eq_none_iff _).mpr h] at henabled; cases henabled
  · rw [(windowKindOf_eq_none_iff _).mpr h] at hkind; cases hkind
  · rw [(numberOf_eq_none_iff _).mpr h] at hgroup; cases hgroup
  · rw [(readViewOf_eq_none_iff _).mpr h] at hview; cases hview
  · rw [(fullPolicyOf_eq_none_iff _).mpr h] at hpolicy; cases hpolicy
  · rw [(watchOnOf_eq_none_iff _).mpr h] at hwatch; cases hwatch
  · rw [(yesNo_eq_none_iff _).mpr h] at hdata; cases hdata

theorem checkWindowSet_undefined {ps : List Byte} {i : WindowNum} (hnumber : (WindowParams.parse ps).number = some i)
    (hwindow : (WindowParams.parse ps).window = none) (a : State) :
    checkWindowSet ps a = if a.acceptsWindowSet (a.windows.get i) = false then some .state else some .param := by
  simp only [checkWindowSet, hnumber, hwindow, Bool.not_eq_true']

/-- Settles O31: the refusals in the order of the check, and the record written. -/
theorem windowSetWritesTheRecord : Obligations.WindowSetWritesTheRecord := by
  intro s i hs hl
  refine ⟨?_, fun n ps hn hlen => ?_⟩
  · intro refusesMode
    have haccepts : (s.framed s.link.lastResult (s.writeSent 16)).acceptsWindowSet (s.windows.get i) = false ↔ refusesMode :=
      acceptsWindowSet_iff (s := s.framed s.link.lastResult (s.writeSent 16)) hl.2.1 _
    refine ⟨?_, fun b1 b2 b11 b12 b13 b14 b15 base size hundefined => ?_⟩
    · intro w badRange holds r conflict outcome
      have hcheck := checkWindowSet_data i w (s.framed s.link.lastResult (s.writeSent 16))
      have hlength : (numberByte i :: w.data).length = 16 := by simp [Window.data, flagByte, beBytes_length]
      have hform : commandForm windowSetCommand.code = some (.write (numberByte i :: w.data).length) := by
        rw [hlength]; rfl
      have hconflict : w.enabled = true ∧ (s.framed s.link.lastResult (s.writeSent 16)).windowConflict i w.base.toNat
          w.size.toNat = true ↔ conflict := and_congr_right fun _ => windowConflict_iff _ _ _ _
      have hrefused : ∀ q, checkWindowSet (numberByte i :: w.data) (s.framed s.link.lastResult (s.writeSent 16)) = some q →
          outcome = .next (s.framed q (s.writeSent 16)) := by
        intro q hq
        have h := frameHappening_write_refused hs hl hform (by rw [hlength]; exact hq)
        rwa [hlength] at h
      refine ⟨fun hmode => ?_, fun hmode hrange => ?_, fun hmode hrange hmeets => ?_, fun hmode hrange hmeets => ?_⟩
      · exact hrefused _ (hcheck.trans (if_pos (haccepts.mpr hmode)))
      · exact hrefused _ (hcheck.trans ((if_neg (mt haccepts.mp hmode)).trans (if_pos hrange)))
      · exact hrefused _ (hcheck.trans ((if_neg (mt haccepts.mp hmode)).trans ((if_neg hrange).trans
          (if_pos (hconflict.mpr hmeets)))))
      · have hnone := hcheck.trans ((if_neg (mt haccepts.mp hmode)).trans ((if_neg hrange).trans
          (if_neg (mt hconflict.mp hmeets))))
        have hsettled := State.settled_framed hs .ok (s.writeSent 16)
        refine frameHappening_write_calm hl hform (by rw [hlength]; exact hnone) ?_
          ⟨hsettled.1.congr rfl rfl rfl rfl rfl rfl, hsettled.2⟩
        rw [hlength]
        show effectWindowSet _ _ = _
        simp only [effectWindowSet, windowParams_window]
        rw [windowParams_parse]
        rfl
    · obtain ⟨hnumber, hwindow⟩ := windowParams_undefined i b1 b2 b11 b12 b13 b14 b15 base size hundefined
      have hcheck := checkWindowSet_undefined hnumber hwindow (s.framed s.link.lastResult (s.writeSent 16))
      rw [exec_windowSet]
      split
      case isTrue hmode => exact frameHappening_write_refused hs hl rfl (hcheck.trans (if_pos (haccepts.mpr hmode)))
      case isFalse hmode => exact frameHappening_write_refused hs hl rfl (hcheck.trans (if_neg (mt haccepts.mp hmode)))
  · have hlength : (n :: ps).length = 16 := by simp [hlen]
    have hcheck : checkWindowSet (n :: ps) (s.framed s.link.lastResult (s.writeSent 16)) = some .param := by
      have hnumber : (WindowParams.parse (n :: ps)).number = none := paramNumber_above hn ps
      simp only [checkWindowSet, hnumber]
    rw [exec_windowSet, ← hlength]
    exact frameHappening_write_refused hs hl (by rw [hlength]; rfl) (by rw [hlength]; exact hcheck)

end Sys2Proof.Machine
end

section
/-! PROOF. GROUP SET (O33) and GROUP ARM (O34): parameters, refusals in order, and the group written; and the rules for a
happening that changes one group and makes nothing due. -/

namespace Sys2Proof.Machine

/-! ## One group changed -/

namespace State
variable {s t : State}

theorem setGroup_setGroup (s : State) (g : GroupNum) (x y : Group) : (s.setGroup g x).setGroup g y = s.setGroup g y := by
  simp only [setGroup, Table8.set_set]

/-- A change of one group that leaves nothing to complete in a flush makes nothing due (R171). -/
theorem Settled.setGroup (h : Settled s) {g : GroupNum} {y : Group}
    (hy : s.mode = .quiescing → y.flushed = true → (s.group g).flushed = true) : Settled (s.setGroup g y) := by
  obtain ⟨⟨htake, hflush, hreset, hbegin, hgrant⟩, hirq⟩ := h
  refine ⟨⟨htake, ?_, hreset, hbegin, hgrant⟩, hirq⟩
  rw [← Bool.not_eq_true] at hflush ⊢
  intro hdone
  obtain ⟨hmode, hgroups, hqueue, hengine⟩ := flushDone_parts hdone
  have hall : ∀ h, (s.group h).flushed = true := by
    intro h
    have hh := hgroups h
    by_cases hg : h = g
    · subst hg
      rw [group_setGroup_self] at hh
      exact hy hmode hh
    · rwa [group_setGroup_ne _ _ hg] at hh
  refine hflush ?_
  have hlist : s.groups.toList.all Group.flushed = true := by
    rw [List.all_eq_true]
    intro x hx
    obtain ⟨h, rfl⟩ := (Table8.mem_toList_iff _ _).mp hx
    exact hall h
  simp only [setGroup_mode, setGroup_commitQueue, setGroup_engine] at hmode hqueue hengine
  simp [flushDone, hmode, hlist, hqueue, hengine]

end State

theorem flushed_iff (x : Group) :
    x.flushed = true ↔ x.state = .off ∨ (x.state = .opened ∧ x.filling = [] ∧ x.outgoing = []) := by
  simp [Group.flushed, and_assoc]

/-! ## GROUP SET (R42 to R44) -/

theorem exec_groupSet (ev : FrameEvent) (s : State) : exec (.groupSet ev) s = frameHappening s groupSetCommand ev := rfl

/-- GROUP SET's parameters out of the bytes of a configuration. -/
theorem groupParams_parse (g : GroupNum) (c : GroupConfig) (hquota : c.quota < 65536) :
    GroupParams.parse (numberByte g :: c.bytes) =
      { number := some g, trigger := some c.trigger, period := c.period.toNat, cycleOffset := c.cycleOffset.toNat
        guardTicks := c.guardTicks.toNat, quota := c.quota, markerPresent := some c.marker.isSome
        markerAddr := (c.marker.getD 0).toNat, reportCommits := some c.reportCommits, reportLates := some c.reportLates } := by
  have hperiod : c.period.toNat % 4294967296 = c.period.toNat := Nat.mod_eq_of_lt c.period.isLt
  have hoffset : c.cycleOffset.toNat % 4294967296 = c.cycleOffset.toNat := Nat.mod_eq_of_lt c.cycleOffset.isLt
  have hguard : c.guardTicks.toNat % 65536 = c.guardTicks.toNat := Nat.mod_eq_of_lt c.guardTicks.isLt
  have hmarker : (c.marker.getD 0#32).toNat < 4294967296 := (c.marker.getD 0).isLt
  simp [GroupParams.parse, GroupConfig.bytes, flagByte, hperiod, hoffset, hguard, hmarker, Nat.mod_eq_of_lt hquota,
    Nat.mod_eq_of_lt (bool_toNat_lt _), Nat.mod_eq_of_lt (trigger_code_lt _)]

theorem groupParams_config (g : GroupNum) (c : GroupConfig) (hquota : c.quota < 65536) :
    (GroupParams.parse (numberByte g :: c.bytes)).config = some c := by
  rw [groupParams_parse g c hquota]
  cases hm : c.marker with
  | none => cases c; simp_all [GroupParams.config]
  | some m => cases c; simp_all [GroupParams.config]

/-- The PARAM refusals on a configuration's values (R42 steps 2 to 5). -/
theorem badValues_iff (g : GroupNum) (c : GroupConfig) (hquota : c.quota < 65536) (x : Group) :
    (GroupParams.parse (numberByte g :: c.bytes)).badValues x c = true ↔
      c.quota = 0 ∨ 256 < c.quota ∨ (x.state = .opened ∧ c.quota < x.occupancy) ∨
        (c.trigger = .periodic ∧ (c.period = 0 ∨ c.period.toNat ≤ c.guardTicks.toNat)) ∨
        c.marker.any (fun m => m.toNat % 4 != 0) = true := by
  have hperiod : c.period.toNat = 0 ↔ c.period = 0 := BitVec.toNat_inj (y := 0#32)
  have hmarker : (c.marker.isSome && (c.marker.getD 0).toNat % 4 != 0) = c.marker.any (fun m => m.toNat % 4 != 0) := by
    cases c.marker <;> rfl
  have hpool : (decide (Config.poolSize < c.quota)) = true ↔ 256 < c.quota := decide_eq_true_iff
  rw [groupParams_parse g c hquota]
  simp only [GroupParams.badValues, hmarker, Bool.or_eq_true, Bool.and_eq_true, beq_iff_eq, hpool, hperiod, decide_eq_true_eq, or_assoc]

/-- CONFLICT of a marker with the windows, the other markers and the ring (R44). -/
theorem markerConflict_eq (s : State) (g : GroupNum) (m : Addr) : s.markerConflict g m =
    (s.windows.toList.any (fun w => w.enabled && inRange m w.base.toNat w.size.toNat) ||
      allGroups.any (fun h => h != g && (s.group h).state != .off && (s.group h).marker == some m) ||
      (s.records.enabled && (inRange m s.records.base.toNat (32 * s.records.capacity) || m == s.records.headAddr ||
        m == s.records.tailAddr))) := by
  have hwindows : allGroups.any (fun i => (s.windows.get i).matchesAddr m) =
      s.windows.toList.any (fun w => w.enabled && inRange m w.base.toNat w.size.toNat) := by
    rw [Bool.eq_iff_iff, Table8.any_toList_iff]
    simp only [List.any_eq_true, mem_allGroups, true_and]
    rfl
  rw [State.markerConflict, hwindows]
  rfl

/-- The refusals of GROUP SET on a configuration (R42). -/
theorem checkGroupSet_config (g : GroupNum) (c : GroupConfig) (hquota : c.quota < 65536) (a : State) :
    checkGroupSet (numberByte g :: c.bytes) a =
      if (a.group g).state ≠ .off ∧ (a.group g).state ≠ .opened then some .state
      else if (GroupParams.parse (numberByte g :: c.bytes)).badValues (a.group g) c = true then some .param
      else if c.marker.any (a.markerConflict g) = true then some .conflict
      else none := by
  have hnumber : (GroupParams.parse (numberByte g :: c.bytes)).number = some g := by rw [groupParams_parse g c hquota]
  simp only [checkGroupSet, hnumber, groupParams_config g c hquota]

/-- GROUP SET's parameters out of bytes with an undefined code: there is no configuration (R42 step 2). -/
theorem groupParams_undefined (g : GroupNum) (b1 b14 b19 b20 : Byte) (period offset marker : BitVec 32)
    (guardTicks quota : BitVec 16) (h : 4 ≤ b1.toNat ∨ 2 ≤ b14.toNat ∨ 2 ≤ b19.toNat ∨ 2 ≤ b20.toNat) :
    (GroupParams.parse ([numberByte g, b1] ++ beBytes 4 period.toNat ++ beBytes 4 offset.toNat ++
        beBytes 2 guardTicks.toNat ++ beBytes 2 quota.toNat ++ [b14] ++ beBytes 4 marker.toNat ++ [b19, b20])).number = some g ∧
      (GroupParams.parse ([numberByte g, b1] ++ beBytes 4 period.toNat ++ beBytes 4 offset.toNat ++
        beBytes 2 guardTicks.toNat ++ beBytes 2 quota.toNat ++ [b14] ++ beBytes 4 marker.toNat ++ [b19, b20])).config = none := by
  refine ⟨by simp [GroupParams.parse], ?_⟩
  rw [Option.eq_none_iff_forall_ne_some]
  intro c hc
  simp only [GroupParams.config, GroupParams.parse, Option.bind_eq_bind, Option.bind_eq_some_iff, Option.pure_def,
    Option.some.injEq] at hc
  obtain ⟨_, htrigger, _, hpresent, _, hcommits, _, hlates, -⟩ := hc
  simp at htrigger hpresent hcommits hlates
  rcases h with h | h | h | h
  · rw [(triggerOf_eq_none_iff _).mpr h] at htrigger; cases htrigger
  · rw [(yesNo_eq_none_iff _).mpr h] at hpresent; cases hpresent
  · rw [(yesNo_eq_none_iff _).mpr h] at hcommits; cases hcommits
  · rw [(yesNo_eq_none_iff _).mpr h] at hlates; cases hlates

theorem checkGroupSet_undefined {ps : List Byte} {g : GroupNum} (hnumber : (GroupParams.parse ps).number = some g)
    (hconfig : (GroupParams.parse ps).config = none) (a : State) :
    checkGroupSet ps a = if (a.group g).state ≠ .off ∧ (a.group g).state ≠ .opened then some .state else some .param := by
  simp only [checkGroupSet, hnumber, hconfig]

theorem reconsiderHeld_of_not_held {s : State} (h : ∀ tk g r k, s.port ≠ .held tk g r k) : s.reconsiderHeld = s := by
  obtain ⟨-, heq⟩ | ⟨tk, g, k, hp, -⟩ := s.reconsiderHeld_cases
  · exact heq
  · exact absurd hp (h tk g .room k)

/-- An accepted GROUP SET: the group's fields, and the held write reconsidered (R43). -/
theorem effectGroupSet_config (g : GroupNum) (c : GroupConfig) (hquota : c.quota < 65536) (a : State) :
    effectGroupSet (numberByte g :: c.bytes) a = (a.setGroup g ((a.group g).afterSet c)).reconsiderHeld := by
  have hnumber : (GroupParams.parse (numberByte g :: c.bytes)).number = some g := by rw [groupParams_parse g c hquota]
  simp only [effectGroupSet, hnumber, groupParams_config g c hquota]
  rfl

/-- A group that a GROUP SET leaves flushed was so before (R43, R171). -/
theorem flushed_of_afterSet {x : Group} {c : GroupConfig} (h : (x.afterSet c).flushed = true) : x.flushed = true := by
  rw [flushed_iff] at h ⊢
  by_cases hx : x.state = .off
  · exact .inl hx
  · rw [Group.afterSet, if_neg hx] at h
    exact h

theorem configBytes_length (g : GroupNum) (c : GroupConfig) : (numberByte g :: c.bytes).length = 21 := by
  simp [GroupConfig.bytes, flagByte, beBytes_length]

/-- Settles O33: the refusals in the order of the check, and the configuration written. -/
theorem groupSetWritesTheConfiguration : Obligations.GroupSetWritesTheConfiguration := by
  refine ⟨fun s g b1 b14 b19 b20 period offset marker guardTicks quota hs hl hundefined => ?_, fun s g c hs hl hfree hquota => ?_⟩
  · obtain ⟨hnumber, hconfig⟩ := groupParams_undefined g b1 b14 b19 b20 period offset marker guardTicks quota hundefined
    have hcheck := checkGroupSet_undefined hnumber hconfig (s.framed s.link.lastResult (s.writeSent 21))
    rw [exec_groupSet]
    split
    case isTrue hstate => exact frameHappening_write_refused hs hl rfl (hcheck.trans (if_pos hstate))
    case isFalse hstate => exact frameHappening_write_refused hs hl rfl (hcheck.trans (if_neg hstate))
  · have hcheck := checkGroupSet_config g c hquota (s.framed s.link.lastResult (s.writeSent 21))
    have hlength := configBytes_length g c
    have hform : commandForm groupSetCommand.code = some (.write (numberByte g :: c.bytes).length) := by
      rw [hlength]; rfl
    have hrefused : ∀ q, checkGroupSet (numberByte g :: c.bytes) (s.framed s.link.lastResult (s.writeSent 21)) = some q →
        exec (.groupSet (.whole (numberByte g :: c.bytes))) s = .next (s.framed q (s.writeSent 21)) := by
      intro q hq
      have h := frameHappening_write_refused hs hl hform (by rw [hlength]; exact hq)
      rwa [hlength] at h
    have hconflict : c.marker.any ((s.framed s.link.lastResult (s.writeSent 21)).markerConflict g) = c.marker.any (fun m =>
        s.windows.toList.any (fun w => w.enabled && inRange m w.base.toNat w.size.toNat) ||
          allGroups.any (fun h => h != g && (s.group h).state != .off && (s.group h).marker == some m) ||
          (s.records.enabled && (inRange m s.records.base.toNat (32 * s.records.capacity) ||
            m == s.records.headAddr || m == s.records.tailAddr))) :=
      congrArg c.marker.any (funext fun m => markerConflict_eq (s.framed s.link.lastResult (s.writeSent 21)) g m)
    dsimp only
    split
    case isTrue hstate => exact hrefused _ (hcheck.trans (if_pos hstate))
    case isFalse hstate =>
      replace hcheck := hcheck.trans (if_neg hstate)
      split
      case isTrue hbad => exact hrefused _ (hcheck.trans (if_pos ((badValues_iff g c hquota _).mpr hbad)))
      case isFalse hgood =>
        replace hcheck := hcheck.trans (if_neg (mt (badValues_iff g c hquota _).mp hgood))
        split
        case isTrue hmeets => exact hrefused _ (hcheck.trans (if_pos (hconflict.trans hmeets)))
        case isFalse hapart =>
          replace hcheck := hcheck.trans (if_neg (fun h => hapart (hconflict.symm.trans h)))
          have hsettled := State.settled_framed hs .ok (s.writeSent 21)
          have hy : ∀ y, y = (s.group g).afterSet c → exec (.groupSet (.whole (numberByte g :: c.bytes))) s =
              .next ((s.framed .ok (s.writeSent 21)).setGroup g y) := by
            rintro y rfl
            refine frameHappening_write_calm hl hform (by rw [hlength]; exact hcheck) ?_
              (State.Settled.setGroup hsettled (fun _ => flushed_of_afterSet))
            rw [hlength]
            exact (effectGroupSet_config g c hquota _).trans (reconsiderHeld_of_not_held hfree)
          refine hy _ ?_
          have hoff : (s.group g).state = .off ∨ (s.group g).state = .opened := by tauto
          rcases hoff with hoff | hopen
          · rw [if_neg (by rw [hoff]; decide), Group.afterSet, if_pos hoff]
            rfl
          · rw [if_pos hopen, Group.afterSet, if_neg (by rw [hopen]; decide)]
            rfl

/-! ## GROUP ARM (R45, R46) -/

theorem exec_groupArm (ev : FrameEvent) (s : State) : exec (.groupArm ev) s = frameHappening s groupArmCommand ev := rfl

theorem armInstant_bytes (g : GroupNum) (i : Time) : armInstant (numberByte g :: beBytes 6 i.toNat) = i := by
  have hfield : field (numberByte g :: beBytes 6 i.toNat) 1 6 = field (beBytes 6 i.toNat) 0 6 := rfl
  rw [armInstant, hfield, timeSet_value]

/-- The refusals of GROUP ARM, in their order (R45, R46). -/
theorem checkArm_eq (s : State) (x : Group) (i : Time) :
    checkArm s x i =
      if x.trigger = .manual ∨ s.mode ≠ .active ∨ x.state ≠ .opened then some .state
      else if x.trigger = .cycle then
        if s.timebase.cycleLength ≤ x.cycleOffset.toNat ∨ x.cycleOffset.toNat < x.guardTicks.toNat then some .param else none
      else if (i - s.time).toNat = 0 ∨ 2 ^ 47 ≤ (i - s.time).toNat then some .param
      else none := by
  have hlater : isLater s.time i = true ↔ ¬ ((i - s.time).toNat = 0 ∨ 2 ^ 47 ≤ (i - s.time).toNat) := by
    rw [isLater, decide_eq_true_eq, distance]
    omega
  have htimed : (if isLater s.time i = true then none else some Result.param) =
      if (i - s.time).toNat = 0 ∨ 2 ^ 47 ≤ (i - s.time).toNat then some .param else none := by
    by_cases h : (i - s.time).toNat = 0 ∨ 2 ^ 47 ≤ (i - s.time).toNat
    · rw [if_pos h, if_neg (fun hl => hlater.mp hl h)]
    · rw [if_neg h, if_pos (hlater.mpr h)]
  unfold checkArm
  cases x.trigger with
  | manual => simp
  | oneshot => simp only [htimed]; simp
  | periodic => simp only [htimed]; simp
  | cycle => simp

theorem armTimed_eq (s : State) (g : GroupNum) (i : Time) :
    s.armTimed g i =
      if (s.group g).guardTicks.toNat < (i - s.time).toNat then
        s.setGroup g { s.group g with state := .armed, nextInstant := some i }
      else
        s.setGroup g { s.group g with
          state := .sealed, nextInstant := some i, sealTime := s.time, outgoing := (s.group g).filling, filling := [] } := by
  unfold State.armTimed distance
  dsimp only
  by_cases h : (s.group g).guardTicks.toNat < (i - s.time).toNat
  · rw [if_pos h]
    simp only [if_neg (Nat.not_le.mpr h)]
    rfl
  · rw [if_neg h]
    simp only [if_pos (Nat.not_lt.mp h)]
    rw [State.modifyGroup_eq, State.sealGroup_eq, State.group_setGroup_self, State.setGroup_setGroup]
    rfl

/-- Settles O34. -/
theorem groupArmArmsTheGroup : Obligations.GroupArmArmsTheGroup := by
  intro s g i hs hl
  have hsettled := State.settled_framed hs .ok (s.writeSent 7)
  have hcheck : checkGroupArm (numberByte g :: beBytes 6 i.toNat) (s.framed s.link.lastResult (s.writeSent 7)) =
      checkArm (s.framed s.link.lastResult (s.writeSent 7)) (s.group g) i := by
    rw [checkGroupArm, checkGroup_numberByte, armInstant_bytes]
    rfl
  have heffect : effectGroupArm (numberByte g :: beBytes 6 i.toNat) (s.framed .ok (s.writeSent 7)) =
      (s.framed .ok (s.writeSent 7)).arm g i := by
    rw [effectGroupArm, onGroup_numberByte, armInstant_bytes]
  replace hcheck := hcheck.trans (checkArm_eq _ _ i)
  rw [exec_groupArm]
  dsimp only
  split
  case isTrue hstate => exact frameHappening_write_refused hs hl rfl (hcheck.trans (if_pos hstate))
  case isFalse hready =>
    replace hcheck := hcheck.trans (if_neg hready)
    have hactive : s.mode = .active := by tauto
    have harmed : ∀ y, checkGroupArm (numberByte g :: beBytes 6 i.toNat) (s.framed s.link.lastResult (s.writeSent 7)) = none →
        (s.framed .ok (s.writeSent 7)).arm g i = (s.framed .ok (s.writeSent 7)).setGroup g y →
        frameHappening s groupArmCommand (.whole (numberByte g :: beBytes 6 i.toNat)) = .next ((s.framed .ok (s.writeSent 7)).setGroup g y) := fun y hnone heq =>
      frameHappening_write_calm hl rfl hnone (heffect.trans heq)
        (State.Settled.setGroup hsettled (fun hm => absurd (hactive.symm.trans hm) (by decide)))
    split
    case isTrue hcycle =>
      replace hcheck := hcheck.trans (if_pos hcycle)
      split
      case isTrue hbad => exact frameHappening_write_refused hs hl rfl (hcheck.trans (if_pos hbad))
      case isFalse hgood =>
        refine harmed _ (hcheck.trans (if_neg hgood)) ?_
        have htrigger : ((s.framed .ok (s.writeSent 7)).group g).trigger = .cycle := hcycle
        simp only [State.arm, htrigger]
        rfl
    case isFalse hnotCycle =>
      replace hcheck := hcheck.trans (if_neg hnotCycle)
      split
      case isTrue hbad => exact frameHappening_write_refused hs hl rfl (hcheck.trans (if_pos hbad))
      case isFalse hgood =>
        replace hcheck := hcheck.trans (if_neg hgood)
        have harm : (s.framed .ok (s.writeSent 7)).arm g i = (s.framed .ok (s.writeSent 7)).armTimed g i := by
          have hmanual : (s.group g).trigger ≠ .manual := by tauto
          cases htrigger : (s.group g).trigger with
          | manual => exact absurd htrigger hmanual
          | cycle => exact absurd htrigger hnotCycle
          | oneshot =>
            have h : ((s.framed .ok (s.writeSent 7)).group g).trigger = .oneshot := htrigger
            simp only [State.arm, h]
          | periodic =>
            have h : ((s.framed .ok (s.writeSent 7)).group g).trigger = .periodic := htrigger
            simp only [State.arm, h]
        replace harm := harm.trans (armTimed_eq _ g i)
        split
        case isTrue hahead => exact harmed _ hcheck (harm.trans (if_pos hahead))
        case isFalse hreached => exact harmed _ hcheck (harm.trans (if_neg hreached))

end Sys2Proof.Machine
end

section
/-! PROOF. What follows a happening at once where no take and no completion is due: a record may begin and a request may be
granted, and nothing else. With it the takes of a presented transaction: O41, O44, O46 and O47. -/

namespace Sys2Proof.Machine

/-! ## What follows where no take and no completion is due -/

/-- From `a` to `u` a record may have begun and one waiting request may have been granted (R121, R149). -/
structure State.Follows (a u : State) : Prop where
  run : u.run = a.run
  mode : u.mode = a.mode
  timebase : u.timebase = a.timebase
  windows : u.windows = a.windows
  port : u.port = a.port
  reply : u.reply = a.reply
  groups : u.groups = a.groups
  commitQueue : u.commitQueue = a.commitQueue
  link : u.link = a.link
  due : u.due = a.due
  pending : u.pending = a.pending
  idle : a.engine = none → u.engine = none
  engine : ∀ c, a.engine = some c → ∃ st, u.engine = some { c with status := st }
  records : u.records = { a.records with writer := u.records.writer }
  writerIdle : a.records.writer = none → a.canBeginRecord = false → u.records.writer = none
  writer : ∀ task st, a.records.writer = some (task, st) → ∃ st', u.records.writer = some (task, st')
  drain : ∀ q, a.asks .drain q → u.asks .drain q
  record : a.records.writer ≠ none → ∀ q, a.asks .record q → u.asks .record q
  initiator : ∀ q, a.asks .initiator q → u.asks .initiator q
  outstanding : ∀ p, a.arbiter.outstanding = some p → u.arbiter.outstanding = some p
  watch : a.watch = none → u.watch = none

namespace State
variable {s a u : State}

theorem Follows.refl (a : State) : a.Follows a :=
  { run := rfl, mode := rfl, timebase := rfl, windows := rfl, port := rfl, reply := rfl, groups := rfl, commitQueue := rfl
    link := rfl, due := rfl, pending := rfl, idle := id, engine := fun c h => ⟨c.status, h⟩, records := rfl
    writerIdle := fun h _ => h, writer := fun _ st h => ⟨st, h⟩, drain := fun _ => id, record := fun _ _ => id
    initiator := fun _ => id, outstanding := fun _ => id, watch := id }

theorem Follows.trans {v : State} (h : a.Follows u) (k : u.Follows v)
    (hbegin : a.records.writer = none → a.canBeginRecord = false → u.canBeginRecord = false)
    (hwriter : a.records.writer ≠ none → u.records.writer ≠ none) : a.Follows v where
  run := k.run.trans h.run
  mode := k.mode.trans h.mode
  timebase := k.timebase.trans h.timebase
  windows := k.windows.trans h.windows
  port := k.port.trans h.port
  reply := k.reply.trans h.reply
  groups := k.groups.trans h.groups
  commitQueue := k.commitQueue.trans h.commitQueue
  link := k.link.trans h.link
  due := k.due.trans h.due
  pending := k.pending.trans h.pending
  idle := k.idle ∘ h.idle
  engine := fun c hc => by
    obtain ⟨st, hst⟩ := h.engine c hc
    obtain ⟨st', hst'⟩ := k.engine _ hst
    exact ⟨st', hst'⟩
  records := by rw [k.records, h.records]
  writerIdle := fun hw hb => k.writerIdle (h.writerIdle hw hb) (hbegin hw hb)
  writer := fun task st hw => (h.writer task st hw).elim fun _ hst => k.writer task _ hst
  drain := fun q hq => k.drain q (h.drain q hq)
  record := fun hw q hq => k.record (hwriter hw) q (h.record hw q hq)
  initiator := fun q hq => k.initiator q (h.initiator q hq)
  outstanding := fun p hp => k.outstanding p (h.outstanding p hp)
  watch := k.watch ∘ h.watch

/-- The beginning of a record leaves all but the writer and its place (R149). -/
theorem follows_settleWriter (a : State) : a.Follows a.settleWriter := by
  by_cases hb : a.canBeginRecord = true
  · obtain ⟨task, q, heq⟩ := settleWriter_of_canBegin hb
    have hidle : a.records.writer = none := by
      simp only [canBeginRecord, Bool.and_eq_true, Option.isNone_iff_eq_none] at hb
      exact hb.1.1.1.1
    rw [heq, writerRequest_eq]
    exact { (Follows.refl a) with
      records := rfl
      writerIdle := fun _ h => absurd hb (by simp [h])
      writer := fun _ _ h => nomatch hidle.symm.trans h
      drain := fun _ => id
      record := fun h => absurd hidle h
      initiator := fun _ => id
      outstanding := fun _ => id }
  · rw [settleWriter_of_not_begin a (by simpa using hb)]
    exact .refl a

/-- A grant at an IDLE arbiter leaves all but the arbiter, the status of the requester and the grants ahead (R121, R134). -/
theorem follows_grantTo {o : Owner} (hplace : (a.arbiter.place o).isSome = true) (hidle : a.arbiter.outstanding = none) :
    a.Follows (a.grantTo o) := by
  obtain ⟨q, hq⟩ := Option.isSome_iff_exists.mp hplace
  have hasks : ∀ o' q', a.asks o' q' → a.arbiter.place o' = some q' := fun o' q' h =>
    h.resolve_right (by simp [hidle])
  have hsame : ∀ q', a.arbiter.place o = some q' → q' = q := fun q' h => Option.some.inj (h.symm.trans hq)
  cases o with
  | drain =>
    rw [grantTo_drain a q hq]
    exact { (Follows.refl a) with
      idle := fun h => by simp [h]
      engine := fun c h => ⟨.outstanding, by simp [h]⟩
      drain := fun q' h => .inr (by rw [hsame q' (hasks _ _ h)])
      record := fun _ q' h => .inl (hasks .record q' h)
      initiator := fun q' h => .inl (hasks .initiator q' h)
      outstanding := fun p h => nomatch hidle.symm.trans h
      watch := fun h => by simp [h] }
  | record =>
    rw [grantTo_record a q hq]
    exact { (Follows.refl a) with
      records := rfl
      writerIdle := fun h _ => by simp [h]
      writer := fun _ _ h => ⟨.outstanding, by simp [h]⟩
      drain := fun q' h => .inl (hasks .drain q' h)
      record := fun _ q' h => .inr (by rw [hsame q' (hasks _ _ h)])
      initiator := fun q' h => .inl (hasks .initiator q' h)
      outstanding := fun p h => nomatch hidle.symm.trans h
      watch := fun h => by simp [h] }
  | initiator =>
    rw [grantTo_initiator a q hq]
    exact { (Follows.refl a) with
      drain := fun q' h => .inl (hasks .drain q' h)
      record := fun _ q' h => .inl (hasks .record q' h)
      initiator := fun q' h => .inr (by rw [hsame q' (hasks _ _ h)])
      outstanding := fun p h => nomatch hidle.symm.trans h }

theorem follows_arbitrate (before a : State) : a.Follows (before.arbitrate a) := by
  by_cases hgrant : a.canGrant = true
  · have hidle : a.arbiter.outstanding = none := by
      simp only [canGrant, Bool.and_eq_true, Option.isNone_iff_eq_none] at hgrant
      exact hgrant.1
    obtain ⟨heq, -⟩ | ⟨o, ho, heq | heq⟩ := a.arbitrate_waiting_cases before
    · rw [heq]; exact .refl a
    · rw [heq]; exact follows_grantTo (a.place_of_mem_waiting ho) hidle
    · rw [heq]
      exact { (follows_grantTo (a := a.nextChoice) (a.place_of_mem_waiting ho) hidle) with }
  · rw [arbitrate_of_no_grant a before (fun h => absurd h hgrant)]
    exact .refl a

theorem canBeginRecord_of_follows (h : a.Follows u) (hw : u.records.writer = none) (hb : a.canBeginRecord = false) :
    u.canBeginRecord = false := by
  have hnone : a.records.writer = none := by
    by_contra hne
    obtain ⟨⟨task, st⟩, hsome⟩ := Option.ne_none_iff_exists'.mp hne
    obtain ⟨st', h'⟩ := h.writer task st hsome
    exact nomatch hw.symm.trans h'
  rw [← hb, canBeginRecord, canBeginRecord, h.records, hw, hnone, h.mode]
  rfl

/-- What follows a happening at once where no take and no completion is due (R121, R149, R159). -/
theorem follows_settle (before : State) (htake : a.canTake = false) (hflush : a.flushDone = false)
    (hreset : a.softResetDone = false) : a.Follows (before.settle a) := by
  have hsettle : before.settle a = (before.arbitrate a.settleWriter).refreshIrq := by
    rw [settle, takeNext_of_not_canTake a htake, settleFlush_of_not_done a hflush, settleSoftReset_of_not_done a hreset]
  have hwriter := follows_settleWriter a
  have h : a.Follows (before.arbitrate a.settleWriter) :=
    hwriter.trans (follows_arbitrate before _)
      (fun hw hb => canBeginRecord_of_follows hwriter (hwriter.writerIdle hw hb) hb)
      (fun hw => by
        obtain ⟨⟨task, st⟩, hsome⟩ := Option.ne_none_iff_exists'.mp hw
        obtain ⟨st', h'⟩ := hwriter.writer task st hsome
        exact fun hnone => nomatch hnone.symm.trans h')
  rw [hsettle]
  exact { h with }

/-- The records of a happening are those handed over by it: what follows hands over none (R142). -/
theorem Follows.reports (h : a.Follows u) {bs : List RecordBody} (ha : Reports s a bs) : Reports s u bs :=
  ⟨(congrArg RecordUnit.queue h.records).trans ha.1, (congrArg RecordUnit.lostCount h.records).trans ha.2⟩

theorem Follows.group (h : a.Follows u) (g : GroupNum) : u.group g = a.group g := by rw [State.group, h.groups]; rfl

/-- In ACTIVE nothing completes. -/
theorem notDone_of_active (h : a.mode = .active) : a.flushDone = false ∧ a.softResetDone = false := by
  simp [flushDone, softResetDone, h]

/-! ## A transaction that passes -/

/-- The request of a transaction that passes is granted at once by an IDLE arbiter, and waits at a BUSY one (R103, R121). -/
theorem settle_request (hs : NothingDue s) (ha : NothingDue a) (harb : a.arbiter = s.arbiter) (hmode : a.mode ≠ .resetting)
    (hsmode : s.mode ≠ .resetting) (q : Request) :
    s.settle (a.request .initiator q) = State.refreshIrq { a with
      arbiter :=
        if s.arbiter.outstanding = none then { s.arbiter with outstanding := some (.initiator, q) }
        else { s.arbiter with initiatorPlace := some q } } := by
  obtain ⟨htake, hflush, -, hbegin, -⟩ := ha
  have hsettle : s.settle (a.request .initiator q) = (s.arbitrate (a.request .initiator q)).refreshIrq := by
    rw [settle, takeNext_of_not_canTake (a.request .initiator q) htake, settleFlush_of_not_done (a.request .initiator q) hflush,
      settleSoftReset_of_not_done _ (by simp [softResetDone, request_initiator, hmode]),
      settleWriter_of_not_begin (a.request .initiator q) hbegin]
  rw [hsettle]
  congr 1
  by_cases hidle : s.arbiter.outstanding = none
  · have hcan : s.canGrant = true := by simp [canGrant, hidle, hsmode]
    obtain ⟨hdrain, hrecord, hinitiator⟩ := s.arbiter.waiting_eq_nil_iff.mp (hs.2.2.2.2 hcan)
    have hplace : (a.request .initiator q).arbiter.initiatorPlace = some q := rfl
    have hwait : (a.request .initiator q).arbiter.waiting = [.initiator] := by
      simp [Arbiter.waiting, grantOrder, Arbiter.place, request_initiator, harb, hdrain, hrecord]
    have hgrant : (a.request .initiator q).canGrant = true := by
      simp [canGrant, request_initiator, harb, hidle, hmode]
    have hgranted : s.arbitrate (a.request .initiator q) = (a.request .initiator q).grantTo .initiator := by
      rw [arbitrate, if_pos hgrant, if_neg (by simp [hidle, hs.2.2.2.2 hcan]), grantArrivals, hwait]
    rw [hgranted, grantTo_initiator _ q hplace, if_pos hidle]
    rw [request_initiator, harb]
    simp only [setArbiter, ← hinitiator]
  · rw [if_neg hidle, arbitrate_of_no_grant _ _ (fun h => absurd h (by simp [canGrant, request_initiator, harb, hidle]))]
    rw [request_initiator, harb]
    rfl

/-- A transaction is taken by a FREE port outside RESETTING (R101). -/
theorem exec_take_of_free {t : Transaction} (hrun : s.run = .running) (hwf : t.wf = true) (hport : s.port = .free)
    (hmode : s.mode ≠ .resetting) : exec (.upstreamTransactionTake t) s = .next (s.settle (s.atTake.classify t)) := by
  have htake : s.canTakeUpstream = true := by simp [canTakeUpstream, hport, hmode]
  rw [exec_take, happening_of_running hrun, takeUpstream, if_pos htake, onBus_of_wf hwf]

/-- A classified transaction that passes without another effect: its request is made, and what follows it (R103, R121). -/
theorem exec_take_of_pass {t : Transaction} (hs : Settled s) (hrun : s.run = .running) (hwf : t.wf = true) (hport : s.port = .free)
    (hmode : s.mode ≠ .resetting) {w : Option WindowNum} (h : s.atTake.classify t = s.atTake.passWith t .pass w) :
    exec (.upstreamTransactionTake t) s = .next { s with
      reply := none, port := .passing { tx := t, takeTime := s.time, disposition := .pass, window := w }
      arbiter :=
        if s.arbiter.outstanding = none then { s.arbiter with outstanding := some (.initiator, requestOf t) }
        else { s.arbiter with initiatorPlace := some (requestOf t) } } := by
  have hdue : NothingDue (s.atTake.setPort (.passing { tx := t, takeTime := s.time, disposition := .pass, window := w })) :=
    hs.1.congr rfl rfl rfl rfl rfl rfl
  rw [exec_take_of_free hrun hwf hport hmode, h]
  refine congrArg Host.Outcome.next ((settle_request hs.1 hdue rfl hmode hmode _).trans (refreshIrq_of_irq _ ?_))
  exact hs.2

/-- Outside BYPASS an access that is no tail write is disposed of by the window it matches (R102). -/
theorem classify_of_window {t : Transaction} {i : WindowNum} (htail : s.isTailWrite t = false) (hmode : s.mode ≠ .bypass)
    (hwin : s.matchWindow t.addr = some i) : s.atTake.classify t = s.atTake.disposeIn t i := by
  have htail' : s.atTake.isTailWrite t = false := htail
  have hwin' : s.atTake.matchWindow t.addr = some i := hwin
  simp [classify, htail', hmode, hwin']

/-- The tail word of an enabled ring is the target (R104). -/
theorem isTailWrite_iff (t : Transaction) :
    s.isTailWrite t = true ↔ s.records.enabled = true ∧ t.dir = .write ∧ t.addr = s.records.tailAddr := by
  simp [isTailWrite, and_assoc]

end State

theorem watchOn_selects_iff (w : WatchOn) (d : Direction) :
    w.selects d = true ↔ w = .both ∨ (w = .writes ∧ d = .write) ∨ (w = .reads ∧ d = .read) := by
  cases w <;> cases d <;> simp [WatchOn.selects]

/-- Settles O41: by the class of the transaction, each of which passes. -/
theorem passedTransactionIsRequestedUnchanged : Obligations.PassedTransactionIsRequestedUnchanged := by
  intro s t hs hrun hwf
  refine ⟨fun hnot => ?_, fun hport hmode htail hclass => ?_⟩
  · have htake : s.canTakeUpstream = false := by
      rw [State.canTakeUpstream, Bool.and_eq_false_iff]
      exact hnot.imp beq_eq_false_iff_ne.mpr (fun h => by simp [h])
    rw [exec_take, happening_of_running hrun, State.takeUpstream, htake]
    exact congrArg Host.Outcome.next (State.settle_of_settled s s hs)
  · have hnotail : s.atTake.isTailWrite t = false := by
      rw [← Bool.not_eq_true]
      exact mt (State.isTailWrite_iff (s := s.atTake) t).mp htail
    refine State.exec_take_of_pass hs hrun hwf hport hmode ?_
    by_cases hbypass : s.mode = .bypass
    · rw [if_pos hbypass, State.classify, if_neg (by simp [hnotail]), if_pos hbypass]
    · rw [if_neg hbypass]
      cases hwin : s.matchWindow t.addr with
      | none =>
        have hwin' : s.atTake.matchWindow t.addr = none := hwin
        rw [State.classify, if_neg (by simp [hnotail]), if_neg hbypass, hwin']
      | some i =>
        rw [State.classify_of_window hnotail hbypass hwin]
        rcases hclass with h | h | ⟨j, hj, hw⟩
        · exact absurd h hbypass
        · exact nomatch hwin.symm.trans h
        · obtain rfl : i = j := Option.some.inj (hwin.symm.trans hj)
          rcases hw with ⟨hkind, hwatch⟩ | ⟨hkind, hoff⟩ | ⟨hkind, hread, hview⟩
          · have hselects : (s.mode == .active && (s.windows.get i).watchOn.selects t.dir) = false := by
              rw [← Bool.not_eq_true, Bool.and_eq_true, beq_iff_eq, watchOn_selects_iff]
              exact hwatch
            simp [State.disposeIn, hkind, hselects]
          · have hgroup : (s.atTake.group (s.windows.get i).group).state = .off := hoff
            simp [State.disposeIn, hkind, hgroup]
          · simp only [State.disposeIn, hkind, hread, State.readStaged, hview]
            split <;> rfl

/-- Settles O47: the context is opened, and the access passes. -/
theorem watchedAccessOpensAContext : Obligations.WatchedAccessOpensAContext := by
  intro s t i hs hrun hwf hport hmode htail hwin hkind hon
  have hnot : s.mode ≠ .resetting := by rw [hmode]; decide
  have hclassify : s.atTake.classify t = (s.atTake.openWatch t i).passWith t .watch (some i) := by
    have hselects : (s.windows.get i).watchOn.selects t.dir = true := (watchOn_selects_iff _ _).mpr hon
    rw [State.classify_of_window htail (by rw [hmode]; decide) hwin]
    simp [State.disposeIn, hkind, hmode, hselects]
  have hdue : NothingDue ((s.atTake.openWatch t i).setPort
      (.passing { tx := t, takeTime := s.time, disposition := .watch, window := some i })) :=
    hs.1.congr rfl rfl rfl rfl rfl rfl
  rw [State.exec_take_of_free hrun hwf hport hnot, hclassify]
  refine congrArg Host.Outcome.next ((State.settle_request hs.1 hdue rfl hnot hnot _).trans
    ((State.refreshIrq_of_irq _ ?_).trans ?_))
  · exact hs.2
  · have hdata : (if (s.windows.get i).watchData && t.dir == .write then captured t else 0) =
        if (s.windows.get i).watchData = true ∧ t.dir = .write then overlay 0 t.data t.lanes else 0 := by
      simp [captured]
    have hahead : (if s.arbiter.outstanding.isSome = true then 1 else 0) = if s.arbiter.outstanding = none then 0 else 1 := by
      cases s.arbiter.outstanding <;> rfl
    simp only [State.openWatch, State.setPort, hdata, hahead]
    rfl

end Sys2Proof.Machine
end

section
/-! PROOF. The writes and reads of STAGE windows (O42, O44, O45), the tail snoop (O46), and the placement and the expiry of the
held write (O48). -/

namespace Sys2Proof.Machine

namespace State
variable {s a u : State}

/-- What is due does not depend on the port, the reply, the watch context, the windows, the timebase, the link and the marks. -/
theorem NothingDue.of_outside {t : State} (h : NothingDue s) (he : t.engine = s.engine) (hq : t.commitQueue = s.commitQueue)
    (hm : t.mode = s.mode) (hg : t.groups = s.groups) (ha : t.arbiter = s.arbiter) (hr : t.records = s.records)
    (hirq : t.irq = s.irq) (hl : t.link = s.link) (hs : s.irq = irqCondition s.records s.link.flags) : Settled t :=
  ⟨h.congr he hq hm hg ha hr, by rw [hirq, hs, hr, hl]⟩

end State

/-! ## Held and empty writes (O44) -/

/-- A write to a STAGE window of a group in service (R102). -/
theorem classify_of_write {s : State} {t : Transaction} {i : WindowNum} (htail : s.isTailWrite t = false) (hmode : s.mode ≠ .bypass)
    (hwin : s.matchWindow t.addr = some i) (hkind : (s.windows.get i).kind = .stage) (hdir : t.dir = .write)
    (hon : (s.group (s.windows.get i).group).state ≠ .off) : s.atTake.classify t = s.atTake.writeStaged t i := by
  have hon' : (s.atTake.group (s.windows.get i).group).state ≠ .off := hon
  rw [State.classify_of_window htail hmode hwin]
  simp [State.disposeIn, hkind, hon', hdir]

theorem writeStaged_of_active {s : State} {t : Transaction} {i : WindowNum} (hlanes : t.lanes ≠ 0) (hmode : s.mode = .active) :
    s.writeStaged t i = s.present t i := by
  rw [State.writeStaged, if_neg hlanes, hmode]

theorem writeStaged_of_quiescing {s : State} {t : Transaction} {i : WindowNum} (hlanes : t.lanes ≠ 0) (hmode : s.mode = .quiescing) :
    s.writeStaged t i = s.hold t i (s.windows.get i).group .mode := by
  rw [State.writeStaged, if_neg hlanes, hmode]

/-- A write that finds no entry of its word and its group full is held under policy WAIT (R17, R106). -/
theorem present_of_full_wait {s : State} {t : Transaction} {i : WindowNum} (hpolicy : (s.windows.get i).fullPolicy = .wait)
    (hmiss : ¬ ∃ e ∈ (s.group (s.windows.get i).group).filling, e.addr = t.addr)
    (hfull : s.hasRoom (s.windows.get i).group = false) : s.present t i = s.hold t i (s.windows.get i).group .room := by
  have hroom : ¬ s.hasRoom (s.windows.get i).group = true := by simp [hfull]
  rw [State.present, if_neg (mt (findEntry_isSome_iff _ _).mp hmiss), if_neg hroom, hpolicy]

/-- Settles O44. -/
theorem heldAndEmptyWrites : Obligations.HeldAndEmptyWrites := by
  intro s t i hs hrun hwf hport htail hwin hkind hdir g x held hon
  have hexec : s.mode ≠ .resetting → s.mode ≠ .bypass →
      exec (.upstreamTransactionTake t) s = .next (s.settle (s.atTake.writeStaged t i)) := fun hnot hmode => by
    rw [State.exec_take_of_free hrun hwf hport hnot, classify_of_write htail hmode hwin hkind hdir hon]
  have hstays : ∀ r p, s.settle { s with reply := r, port := p } = { s with reply := r, port := p } := fun r p =>
    State.settle_of_settled _ _ (State.NothingDue.of_outside hs.1 rfl rfl rfl rfl rfl rfl rfl rfl hs.2)
  refine ⟨fun hlanes hmode => ?_, fun hlanes hmode => ?_, fun hlanes hmode hpolicy hmiss hfull => ?_⟩
  · have hanswered : s.atTake.writeStaged t i = { s with reply := some .okWrite, port := s.port } := by
      rw [State.writeStaged, if_pos hlanes, hport]
      rfl
    rw [hexec (by rcases hmode with h | h <;> rw [h] <;> decide) (by rcases hmode with h | h <;> rw [h] <;> decide),
      hanswered, hstays]
  · have hheld : s.atTake.writeStaged t i = { s with reply := none, port := held .mode } := by
      exact writeStaged_of_quiescing (s := s.atTake) hlanes hmode
    rw [hexec (by rw [hmode]; decide) (by rw [hmode]; decide), hheld, hstays]
  · have hheld : s.atTake.writeStaged t i = { s with reply := none, port := held .room } := by
      have hroom : s.atTake.hasRoom g = false := (State.hasRoom_eq_false_iff s.atTake g).mpr hfull
      exact (writeStaged_of_active (s := s.atTake) hlanes hmode).trans
        (present_of_full_wait (s := s.atTake) hpolicy (fun ⟨e, he, ha⟩ => hmiss e he ha) hroom)
    rw [hexec (by rw [hmode]; decide) (by rw [hmode]; decide), hheld, hstays]

/-! ## Staged writes (O42) -/

/-- A write that finds no entry of its word and room is a new entry (R12, R105). -/
theorem present_of_room {s : State} {t : Transaction} {i : WindowNum}
    (hmiss : ¬ ∃ e ∈ (s.group (s.windows.get i).group).filling, e.addr = t.addr) (hroom : s.hasRoom (s.windows.get i).group = true) :
    s.present t i = (s.placeNew (s.windows.get i).group t).answer .okWrite := by
  rw [State.present, if_neg (mt (findEntry_isSome_iff _ _).mp hmiss), if_pos hroom]

theorem hasRoom_iff (s : State) (g : GroupNum) :
    s.hasRoom g = true ↔ (s.group g).filling.length + (s.group g).outgoing.length < (s.group g).quota ∧ s.poolUsed < 256 := by
  rw [← Bool.not_eq_false, State.hasRoom_eq_false_iff, not_or, Nat.not_le, Nat.not_le]
  rfl

/-- The state after a staged write that leaves its group's filling list `l` (R11, R12, R15). -/
def State.afterPlacement (s : State) (g : GroupNum) (t : Transaction) (l : List Entry) : State :=
  { s with
    port := .free, reply := some .okWrite, groups := s.groups.set g (State.placed (s.group g) l)
    records := s.recordsAfterPlacement g t }

theorem recordsAfterPlacement_of_quiet {s : State} {g : GroupNum} {t : Transaction}
    (h : ¬ ((s.group g).state = .sealed ∧ (s.group g).reportLates = true)) : s.recordsAfterPlacement g t = s.records := if_neg h

/-- A placement in ACTIVE without a record makes nothing due. -/
theorem settled_afterPlacement {s : State} (hs : Settled s) (hmode : s.mode = .active) {g : GroupNum} {t : Transaction}
    (l : List Entry) (h : ¬ ((s.group g).state = .sealed ∧ (s.group g).reportLates = true)) : Settled (s.afterPlacement g t l) := by
  have hrecords : (s.afterPlacement g t l).records = s.records := recordsAfterPlacement_of_quiet h
  refine ⟨hs.1.of_open_mode (by rw [hmode]; decide) ?_ ?_ rfl rfl rfl hrecords, ?_⟩
  · show s.mode ≠ _; rw [hmode]; decide
  · show s.mode ≠ _; rw [hmode]; decide
  · rw [hrecords]; exact hs.2

theorem follows_afterPlacement {s : State} (hs : Settled s) (hmode : s.mode = .active) (g : GroupNum) (t : Transaction)
    (l : List Entry) : (s.afterPlacement g t l).Follows (s.settle (s.afterPlacement g t l)) :=
  have hdone := State.notDone_of_active (a := s.afterPlacement g t l) hmode
  State.follows_settle s hs.1.1 hdone.1 hdone.2

/-- What a late write is reported to have missed (R35). -/
theorem missedInstant_of_timed {x : Group} {n : Time} (htrigger : x.trigger = .oneshot ∨ x.trigger = .periodic)
    (hn : x.nextInstant = some n) : x.missedInstant = n := by
  rcases htrigger with h | h <;> simp [Group.missedInstant, h, hn]

theorem missedInstant_of_cycle {x : Group} (h : x.trigger = .cycle) : x.missedInstant = x.sealTime := by
  simp [Group.missedInstant, h]

/-- Settles O42: the write is merged or appended, and nothing else is due outside SEALED. -/
theorem stagedWriteIsMergedOrAppended : Obligations.StagedWriteIsMergedOrAppended := by
  intro s t i hs hrun hwf hport hmode htail hwin hkind hdir hlanes g x merged appended hit room
  have hmerged : x.state ≠ .off → hit →
      exec (.upstreamTransactionTake t) s = .next (s.settle (s.afterPlacement g t merged)) := fun hon hhit => by
    rw [State.exec_take_of_staged_write hrun hwf hport hmode htail hwin hkind hdir hlanes hon,
      State.present_of_hit (s := s.atTake) hhit, State.placeMerge_eq]
    rfl
  have happended : x.state ≠ .off → ¬ hit → room →
      exec (.upstreamTransactionTake t) s = .next (s.settle (s.afterPlacement g t appended)) := fun hon hmiss hroom => by
    rw [State.exec_take_of_staged_write hrun hwf hport hmode htail hwin hkind hdir hlanes hon,
      present_of_room (s := s.atTake) hmiss ((hasRoom_iff s.atTake g).mpr hroom), State.placeNew_eq]
    rfl
  have hplain : ∀ l, x.state ≠ .sealed → s.settle (s.afterPlacement g t l) =
      { s with reply := some .okWrite, groups := s.groups.set g { x with filling := l } } := fun l hx => by
    have hquiet : ¬ (x.state = .sealed ∧ x.reportLates = true) := fun h => hx h.1
    rw [State.settle_of_settled _ _ (settled_afterPlacement hs hmode l hquiet), State.afterPlacement,
      recordsAfterPlacement_of_quiet hquiet, State.placed, if_neg hx, ← hport]
  refine ⟨fun hon hx hhit => ?_, fun hon hx hmiss hroom => ?_, fun hx hor => ?_⟩
  · rw [hmerged hon hhit, hplain _ hx]
  · rw [happended hon hmiss hroom, hplain _ hx]
  · have hon : x.state ≠ .off := by rw [hx]; decide
    have hexec : exec (.upstreamTransactionTake t) s =
        .next (s.settle (s.afterPlacement g t (if hit then merged else appended))) := by
      by_cases hhit : hit
      · rw [if_pos hhit, hmerged hon hhit]
      · rw [if_neg hhit, happended hon hhit (hor.resolve_left hhit)]
    have hfollows := follows_afterPlacement hs hmode g t (if hit then merged else appended)
    have hgroup : (s.settle (s.afterPlacement g t (if hit then merged else appended))).group g =
        { x with filling := if hit then merged else appended, lateCount := min (x.lateCount + 1) 65535 } := by
      rw [hfollows.group, State.group, State.afterPlacement, Table8.get_set_self, State.placed, if_pos hx]
      rfl
    have hlate : x.reportLates = true → (s.afterPlacement g t (if hit then merged else appended)).records =
        s.records.handOver (.late g s.time t.addr t.lanes x.missedInstant) := fun hr => if_pos ⟨hx, hr⟩
    have hqueue : x.reportLates = true → (s.settle (s.afterPlacement g t (if hit then merged else appended))).records.queue =
        (s.records.handOver (.late g s.time t.addr t.lanes x.missedInstant)).queue := fun hr => by
      rw [hfollows.records, ← hlate hr]
    refine ⟨_, hexec, hfollows.reply, hfollows.port, fun hhit => ?_, fun hmiss => ?_, fun h hne => ?_, fun hr => ?_,
      fun n hr htrigger hn => ?_, fun hr htrigger => ?_⟩
    · rw [hgroup, if_pos hhit]
    · rw [hgroup, if_neg hmiss]
    · rw [hfollows.group]
      exact Table8.get_set_ne _ _ hne
    · have hquiet : ¬ (x.state = .sealed ∧ x.reportLates = true) := fun h => by rw [hr] at h; exact nomatch h.2
      rw [State.settle_of_settled _ _ (settled_afterPlacement hs hmode _ hquiet)]
      exact recordsAfterPlacement_of_quiet hquiet
    · rw [hqueue hr, missedInstant_of_timed htrigger.symm hn]
    · rw [hqueue hr, missedInstant_of_cycle htrigger]

/-! ## The held write placed, and expired (O48) -/

theorem reconsiderHeld_eq {s : State} {tk : Taken} {g : GroupNum} {k : Nat} (hport : s.port = .held tk g .room k)
    (hmode : s.mode = .active) (hroom : s.hasRoom g = true) :
    s.reconsiderHeld = s.afterPlacement g tk.tx (allocateIn (s.group g).filling tk.tx) := by
  have hcan : s.canPlaceHeld = true := by simp [State.canPlaceHeld, hport, hmode, hroom]
  rw [State.reconsiderHeld, if_pos hcan, State.placeHeld, hport]
  show (s.placeNew g tk.tx).answer .okWrite = _
  rw [State.placeNew_eq]
  rfl

theorem exec_heldWritePlacement {s : State} (hrun : s.run = .running) :
    exec .heldWritePlacement s = .next (s.settle s.reconsiderHeld) := happening_of_running hrun _

theorem exec_holdExpiry {s : State} (hrun : s.run = .running) : exec .holdExpiry s = .next (s.settle s.takeUpHold) :=
  happening_of_running hrun _

theorem Reports.single {s t : State} {b : RecordBody} (h : t.records = s.records.handOver b) : Reports s t [b] :=
  ⟨congrArg RecordUnit.queue h, congrArg RecordUnit.lostCount h⟩

theorem Reports.none {s t : State} (h : t.records = s.records) : Reports s t [] :=
  ⟨congrArg RecordUnit.queue h, congrArg RecordUnit.lostCount h⟩

/-- Settles O48. -/
theorem heldWriteIsPlacedOrExpires : Obligations.HeldWriteIsPlacedOrExpires := by
  intro s hs hrun
  refine ⟨fun hcan => ?_, ?_, fun hhold => ?_, fun tk g r k hport hhold => ?_⟩
  · rw [exec_heldWritePlacement hrun, State.reconsiderHeld, hcan]
    exact congrArg Host.Outcome.next (State.settle_of_settled s s hs)
  · intro tk g k hport hmode hpool hquota x placed
    have hexec : exec .heldWritePlacement s = .next (s.settle (s.afterPlacement g tk.tx placed.filling)) := by
      rw [exec_heldWritePlacement hrun, reconsiderHeld_eq hport hmode ((hasRoom_iff s g).mpr ⟨hquota, hpool⟩)]
      rfl
    have hfollows := follows_afterPlacement hs hmode g tk.tx placed.filling
    refine ⟨fun hx => ?_, fun hx => ?_⟩
    · have hquiet : ¬ (x.state = .sealed ∧ x.reportLates = true) := fun h => hx h.1
      rw [hexec, State.settle_of_settled _ _ (settled_afterPlacement hs hmode _ hquiet), State.afterPlacement,
        recordsAfterPlacement_of_quiet hquiet, State.placed, if_neg hx]
    · have hreports : x.reportLates = true →
          Reports s (s.settle (s.afterPlacement g tk.tx placed.filling)) [.late g s.time tk.tx.addr tk.tx.lanes x.missedInstant] :=
        fun hr => hfollows.reports (Reports.single (if_pos ⟨hx, hr⟩))
      refine ⟨_, hexec, hfollows.port, hfollows.reply, ?_, fun h hne => ?_, fun hr => ?_, fun n hn hr htrigger => ?_,
        fun hr htrigger => ?_⟩
      · rw [hfollows.group, State.group, State.afterPlacement, Table8.get_set_self, State.placed, if_pos hx]
        rfl
      · rw [hfollows.group]
        exact Table8.get_set_ne _ _ hne
      · exact hfollows.reports (Reports.none (if_neg (fun h => by rw [hr] at h; exact nomatch h.2)))
      · rw [← missedInstant_of_timed htrigger hn]
        exact hreports hr
      · rw [← missedInstant_of_cycle htrigger]
        exact hreports hr
  · rw [exec_holdExpiry hrun, State.takeUpHold, hhold]
    exact congrArg Host.Outcome.next (State.settle_of_settled s s hs)
  · have hexpired : s.takeUpHold = { s with
        due := { s.due with hold := false }, port := .free, reply := some .error
        records := s.records.handOver (.refused g s.time .timeout tk.tx.addr tk.tx.lanes) } := by
      have hport' : (s.setDue { s.due with hold := false }).port = .held tk g r k := hport
      rw [State.takeUpHold, if_pos hhold, State.expireHeld, hport']
      rfl
    obtain ⟨htake, hflush, hreset, -⟩ := hs.1
    have hfollows := State.follows_settle (a := s.takeUpHold) s (by rw [hexpired]; exact htake) (by rw [hexpired]; exact hflush)
      (by rw [hexpired]; exact hreset)
    refine ⟨_, exec_holdExpiry hrun, ?_, ?_, ?_, hfollows.reports ?_⟩
    · rw [hfollows.port, hexpired]
    · rw [hfollows.reply, hexpired]
    · rw [hfollows.groups, hexpired]
    · rw [hexpired]
      exact Reports.single rfl

end Sys2Proof.Machine
end

section
/-! PROOF. The staged read (O45) and the tail snoop (O46). -/

namespace Sys2Proof.Machine

/-! ## The staged read (O45) -/

/-- The byte of lane `k` that a list holds for a word (R25). -/
def stagedLane (l : List Entry) (a : Addr) (k : Nat) : Option Byte :=
  (l.find? (fun e => e.addr == a)).bind (fun e => if e.lanes.getLsbD k then some (e.data.extractLsb' (8 * k) 8) else none)

/-- The newest staged byte of lane `k`: the filling entry's, else the outgoing entry's (R25). -/
def Group.newestLane (x : Group) (a : Addr) (k : Nat) : Option Byte := (stagedLane x.filling a k).or (stagedLane x.outgoing a k)

theorem overlayEntry_lane (w : Word) (l : List Entry) (a : Addr) {k : Nat} (hk : k < 4) :
    (overlayEntry w (findEntry l a)).extractLsb' (8 * k) 8 = (stagedLane l a k).getD (w.extractLsb' (8 * k) 8) := by
  unfold stagedLane findEntry
  cases l.find? (fun e => e.addr == a) with
  | none => rfl
  | some e =>
    have hlane := overlayTakesTheLanes w e.data e.lanes k hk
    rw [overlayEntry, hlane]
    by_cases hl : e.lanes.getLsbD k = true
    · simp [hl]
    · simp [hl]

/-- Lane `k` of a word with the staged lanes laid over it (R25, R26). -/
theorem overlayWord_lane (x : Group) (a : Addr) (w : Word) {k : Nat} (hk : k < 4) :
    (x.overlayWord a w).extractLsb' (8 * k) 8 = (x.newestLane a k).getD (w.extractLsb' (8 * k) 8) := by
  rw [Group.overlayWord, overlayEntry_lane _ _ _ hk, overlayEntry_lane _ _ _ hk, Group.newestLane]
  cases stagedLane x.filling a k <;> rfl

theorem lanesOf_findEntry (l : List Entry) (a : Addr) (k : Nat) :
    (lanesOf (findEntry l a)).getLsbD k = (stagedLane l a k).isSome := by
  unfold stagedLane findEntry
  cases l.find? (fun e => e.addr == a) with
  | none => simp [lanesOf]
  | some e => cases h : e.lanes.getLsbD k <;> simp [lanesOf, h]

theorem lanes_eq_all_iff (l : Lanes) : l = Lanes.all ↔ ∀ k < 4, l.getLsbD k = true := by
  revert l; decide

/-- All four lanes are staged exactly where each has a newest byte (R25). -/
theorem allStaged_iff (x : Group) (a : Addr) : x.allStaged a = true ↔ ∀ k < 4, x.newestLane a k ≠ none := by
  rw [Group.allStaged, beq_iff_eq, lanes_eq_all_iff]
  refine forall₂_congr fun k _ => ?_
  rw [BitVec.getLsbD_or, lanesOf_findEntry, lanesOf_findEntry, Group.newestLane, ← Option.isSome_iff_ne_none, Option.isSome_or]

/-- A read of a STAGED-view window of a group in service (R102, R108). -/
theorem classify_of_staged_read {s : State} {t : Transaction} {i : WindowNum} (hmode : s.mode ≠ .bypass)
    (hwin : s.matchWindow t.addr = some i) (hkind : (s.windows.get i).kind = .stage) (hdir : t.dir = .read)
    (hview : (s.windows.get i).readView = .staged) (hon : (s.group (s.windows.get i).group).state ≠ .off) :
    s.atTake.classify t =
      if (s.group (s.windows.get i).group).allStaged t.addr = true then
        s.atTake.answer (.okRead ((s.group (s.windows.get i).group).overlayWord t.addr 0))
      else s.atTake.passWith t (.overlay (s.windows.get i).group) (some i) := by
  have htail : s.isTailWrite t = false := by simp [State.isTailWrite, hdir]
  have hon' : (s.atTake.group (s.windows.get i).group).state ≠ .off := hon
  rw [State.classify_of_window htail hmode hwin]
  simp only [State.disposeIn, hkind, hdir, State.readStaged, hview, if_neg hon']
  rfl

/-- Settles O45. -/
theorem stagedReadIsAnsweredOrOverlaid : Obligations.StagedReadIsAnsweredOrOverlaid := by
  intro s t i hs hrun hwf hport hmode hwin hkind hdir hview g staged newest hon
  have hnot : s.mode ≠ .resetting := by rcases hmode with h | h <;> rw [h] <;> decide
  have hclassify := classify_of_staged_read (by rcases hmode with h | h <;> rw [h] <;> decide) hwin hkind hdir hview hon
  have hnewest : ∀ k, newest k = (s.group g).newestLane t.addr k := fun _ => rfl
  refine ⟨fun hall => ?_, fun hsome => ?_⟩
  · have hstaged : (s.group g).allStaged t.addr = true := (allStaged_iff _ _).mpr hall
    refine ⟨(s.group g).overlayWord t.addr 0, ?_, fun k hk => ?_⟩
    · have hanswered : s.atTake.answer (.okRead ((s.group g).overlayWord t.addr 0)) =
          { s with reply := some (.okRead ((s.group g).overlayWord t.addr 0)), port := s.port } := by
        rw [hport]; rfl
      rw [State.exec_take_of_free hrun hwf hport hnot, hclassify, if_pos hstaged, hanswered]
      exact congrArg Host.Outcome.next (State.settle_of_settled _ _
        (State.NothingDue.of_outside hs.1 rfl rfl rfl rfl rfl rfl rfl rfl hs.2))
    · obtain ⟨b, hb⟩ := Option.ne_none_iff_exists'.mp (hall k hk)
      rw [overlayWord_lane _ _ _ hk, ← hnewest, hb, Option.getD_some]
  · have hstaged : ¬ (s.group g).allStaged t.addr = true := by
      rw [allStaged_iff]
      obtain ⟨k, hk, hnone⟩ := hsome
      exact fun h => h k hk hnone
    obtain ⟨htake, hflush, hreset, -⟩ := hs.1
    have hfollows := State.follows_settle (a := s.atTake.passWith t (.overlay g) (some i)) s htake hflush
      (by simp [State.softResetDone, State.passWith, State.request_initiator, hnot])
    refine ⟨_, by rw [State.exec_take_of_free hrun hwf hport hnot, hclassify, if_neg hstaged], hfollows.groups, hfollows.reply,
      hfollows.port, hfollows.initiator _ (.inl ?_)⟩
    show some (requestOf t) = _
    rw [requestOf, hdir]

/-! ## The tail snoop (O46) -/

/-- A tail update is valid (R154). -/
theorem validTail_iff (r : RecordUnit) (l : Lanes) (v : Nat) :
    r.validTail l v = true ↔
      l = 0xF#4 ∧ v < r.capacity ∧ (v + r.capacity - r.consumer % r.capacity) % r.capacity ≤ r.unconsumed := by
  rw [RecordUnit.validTail, Bool.and_eq_true, Bool.and_eq_true, beq_iff_eq, decide_eq_true_eq, decide_eq_true_eq, and_assoc]
  rfl

/-- The urgent mark that a tail update leaves (R158). -/
theorem markAfter_eq (r : RecordUnit) (v : Nat) :
    r.markAfter v = r.urgentMark.filter (fun m => decide (ringSub v r.consumer r.capacity ≤ ringSub m r.consumer r.capacity)) := by
  unfold RecordUnit.markAfter
  cases r.urgentMark with
  | none => rfl
  | some m =>
    by_cases h : ringSub m r.consumer r.capacity < ringSub v r.consumer r.capacity
    · simp [h, Option.filter]
    · simp [h, Option.filter, Nat.not_lt.mp h]

/-- Settles O46. -/
theorem tailWriteIsSnooped : Obligations.TailWriteIsSnooped := by
  intro s t hs hrun hwf hport hmode henabled hdir haddr
  have htail : s.atTake.isTailWrite t = true := (State.isTailWrite_iff (s := s.atTake) t).mpr ⟨henabled, hdir, haddr⟩
  have hexec : exec (.upstreamTransactionTake t) s =
      .next (s.settle ((s.atTake.tailSnoop t).passWith t .tailSnoop none)) := by
    rw [State.exec_take_of_free hrun hwf hport hmode, State.classify, if_pos htail]
  have hv : (t.data.extractLsb' 0 16).toNat = t.data.toNat % 65536 := by simp
  obtain ⟨htake, hflush, hreset, -⟩ := hs.1
  have hrequest : requestOf t = ⟨t.addr, .write, t.lanes, t.data⟩ := by rw [requestOf, hdir]
  by_cases hvalid : s.records.validTail t.lanes (t.data.toNat % 65536) = true
  · have hsnoop : s.atTake.tailSnoop t = s.atTake.setRecords { s.records with
        consumer := t.data.toNat % 65536, urgentMark := s.records.markAfter (t.data.toNat % 65536) } := by
      simp only [State.tailSnoop, hv]
      exact if_pos hvalid
    have hfollows := State.follows_settle (a := (s.atTake.tailSnoop t).passWith t .tailSnoop none) s (by rw [hsnoop]; exact htake)
      (by rw [hsnoop]; exact hflush) (by simp [hsnoop, State.softResetDone, State.passWith, State.request_initiator, hmode])
    have hrecords := hfollows.records
    refine ⟨_, hexec, ?_, ?_, ?_, ?_⟩
    · rw [hfollows.port, hsnoop]; rfl
    · refine hfollows.initiator _ (.inl ?_)
      rw [← hrequest]; rfl
    · rw [hfollows.groups, hsnoop]; rfl
    · intro r v valid
      refine ⟨fun _ => ⟨?_, ?_, ?_⟩, fun hnot => absurd ((validTail_iff _ _ _).mp hvalid) hnot⟩
      · rw [hrecords, hsnoop]; rfl
      · rw [hfollows.link, hsnoop]; rfl
      · rw [hrecords, hsnoop]; exact markAfter_eq _ _
  · have hsnoop : s.atTake.tailSnoop t = s.atTake.raise .tail := by
      simp only [State.tailSnoop, hv]
      exact if_neg hvalid
    have hdue : NothingDue ((s.atTake.raise .tail).setPort
        (.passing { tx := t, takeTime := s.time, disposition := .tailSnoop, window := none })) :=
      hs.1.congr rfl rfl rfl rfl rfl rfl
    rw [hsnoop] at hexec
    refine ⟨_, hexec.trans (congrArg Host.Outcome.next (State.settle_request hs.1 hdue rfl hmode hmode (requestOf t))), ?_⟩
    refine ⟨rfl, ?_, rfl, fun hv => absurd ((validTail_iff _ _ _).mpr hv) hvalid, fun _ => ⟨rfl, rfl, ?_⟩⟩
    · rw [← hrequest]
      by_cases hidle : s.arbiter.outstanding = none
      · refine .inr ?_
        show (if s.arbiter.outstanding = none then _ else _ : Arbiter).outstanding = _
        rw [if_pos hidle]
      · refine .inl ?_
        show (if s.arbiter.outstanding = none then _ else _ : Arbiter).initiatorPlace = _
        rw [if_neg hidle]
    · show irqCondition s.records { s.link.flags with tail := true } = true
      simp [irqCondition]

end Sys2Proof.Machine
end

section
/-! PROOF. The soft reset (O22, O23), and memory's answer to the initiator path (O50). -/

namespace Sys2Proof.Machine

namespace State
variable {s a : State}

/-! ## The completion of the soft reset -/

/-- A request that waits alone at an IDLE arbiter is granted, whatever went before (R121). -/
theorem arbitrate_of_single {o : Owner} (before : State) (hgrant : a.canGrant = true) (hwait : a.arbiter.waiting = [o]) :
    before.arbitrate a = a.grantTo o := by
  have harrivals : a.grantArrivals = a.grantTo o := by rw [grantArrivals, hwait]
  rw [arbitrate, if_pos hgrant]
  split
  · unfold grantAtResponse
    split
    · exact harrivals
    · next p rest w rest' hin hw =>
      have hp : p ∈ a.arbiter.waiting := (List.mem_filter.mp (hin ▸ List.mem_cons_self)).1
      rw [hwait] at hp hw
      obtain rfl : p = o := List.mem_singleton.mp hp
      obtain ⟨rfl, -⟩ := List.cons.inj hw
      rw [if_pos rfl]
    · next hw => exact nomatch hwait.symm.trans hw
  · exact harrivals

/-- The device after the completion of a soft reset at which the transaction `kept`, if any, was kept taken: it is requested again
and granted (R113, R174). -/
def softResetTo (a : State) (kept : Option Taken) : State :=
  { a with
    mode := .bypass, windows := .fill Window.initial
    port := match kept with
      | none => .free
      | some tk => .passing { tk with disposition := .pass, window := none }
    groups := .fill Group.initial, commitQueue := [], engine := none
    arbiter := { Arbiter.initial with outstanding := kept.map (fun tk => (.initiator, requestOf tk.tx)) }
    watch := none, records := RecordUnit.initial, link := a.link.softReset, irq := false, due := Due.none }

theorem settle_resetting (before : State) (hmode : a.mode = .resetting) (hidle : a.arbiter.outstanding = none) :
    before.settle a = (before.arbitrate a.completeSoftReset).refreshIrq := by
  have hdone : a.softResetDone = true := by simp [softResetDone, hmode, hidle]
  obtain ⟨q, -, heq⟩ := a.completeSoftReset_cases
  have hbegin : a.completeSoftReset.canBeginRecord = false := by rw [heq]; rfl
  rw [settle, takeNext_of_not_canTake a (by simp [canTake, hmode]), settleFlush_of_not_done a (by simp [flushDone, hmode]),
    settleSoftReset, if_pos hdone, settleWriter_of_not_begin _ hbegin]

/-- The soft reset completes where the memory port is idle and no transaction is kept (R174). -/
theorem settle_softReset_free (before : State) (hmode : a.mode = .resetting) (hidle : a.arbiter.outstanding = none)
    (hport : ∀ tk, a.port ≠ .passing tk) : before.settle a = a.softResetTo none := by
  have hfree : a.port.afterSoftReset = .free := by
    cases hp : a.port with
    | free => rfl
    | held => rfl
    | passing tk => exact absurd hp (hport tk)
  have hpassing : a.port.isPassing = false := by
    cases hp : a.port with
    | free => rfl
    | held => rfl
    | passing tk => exact absurd hp (hport tk)
  obtain ⟨q, hq, heq⟩ := a.completeSoftReset_cases
  rw [settle_resetting before hmode hidle, heq, hq hpassing, hfree, arbitrate_of_no_grant _ _ (fun _ => rfl)]
  rfl

/-- The soft reset completes where the memory port is idle, and a transaction kept taken is granted (R113, R174). -/
theorem settle_softReset_kept (before : State) (hmode : a.mode = .resetting) (hidle : a.arbiter.outstanding = none) {tk : Taken}
    (hport : a.port = .passing tk) : before.settle a = a.softResetTo (some tk) := by
  have hcomplete : a.completeSoftReset = { a with
      mode := .bypass, windows := .fill Window.initial, port := .passing { tk with disposition := .pass, window := none }
      groups := .fill Group.initial, commitQueue := [], engine := none
      arbiter := { Arbiter.initial with initiatorPlace := some (requestOf tk.tx) }, watch := none
      records := RecordUnit.initial, link := a.link.softReset, due := Due.none } := by
    rw [completeSoftReset, hport]
    rfl
  rw [settle_resetting before hmode hidle, hcomplete, arbitrate_of_single (o := .initiator) _ rfl rfl, grantTo_initiator _ _ rfl]
  rfl

/-! ## Memory's answers in RESETTING -/

/-- What memory's answer to the drain engine or the ring writer leaves in RESETTING (R71, R153). -/
structure Unanswered (s a : State) : Prop where
  run : a.run = s.run
  mode : a.mode = s.mode
  timebase : a.timebase = s.timebase
  port : a.port = s.port
  reply : a.reply = s.reply
  link : a.link = s.link
  choices : a.choices = s.choices
  pending : a.pending = s.pending
  outstanding : a.arbiter.outstanding = none

theorem Unanswered.softResetTo (h : s.Unanswered a) (kept : Option Taken) : a.softResetTo kept = s.softResetTo kept := by
  unfold State.softResetTo
  rw [h.run, h.timebase, h.reply, h.link, h.choices, h.pending]

theorem Unanswered.records (h : s.Unanswered a) (r : RecordUnit) : s.Unanswered (a.setRecords r) := { h with }

theorem Unanswered.writerRequest (h : s.Unanswered a) (t : WriterTask) (q : Request) : s.Unanswered (a.writerRequest t q) := { h with }

theorem unanswered_endTransaction (s : State) : s.Unanswered s.endTransaction := ⟨rfl, rfl, rfl, rfl, rfl, rfl, rfl, rfl, rfl⟩

theorem unanswered_drainResponse (hmode : s.mode = .resetting) (howner : s.arbiter.owner = some .drain) (hengine : s.engine ≠ none)
    (ok : Bool) : s.Unanswered (s.drainResponse ok) := by
  obtain ⟨c, hc⟩ := Option.ne_none_iff_exists'.mp hengine
  obtain ⟨⟨o, q⟩, hq, ho⟩ := Option.map_eq_some_iff.mp howner
  obtain rfl : o = .drain := ho
  have hresponse : s.drainResponse ok = s.endTransaction.stepResponseInReset c ok := by
    simp only [drainResponse, hq, hc, stepResponse]
    exact if_pos hmode
  rw [hresponse, stepResponseInReset]
  split
  · have hheld : (s.endTransaction.dropOutgoing c.group).canPlaceHeld = false := by
      have hm : (s.endTransaction.dropOutgoing c.group).mode = .resetting := hmode
      unfold canPlaceHeld
      split <;> simp [hm]
    rw [releaseOutgoing, reconsiderHeld, hheld]
    exact ⟨rfl, rfl, rfl, rfl, rfl, rfl, rfl, rfl, rfl⟩
  · exact unanswered_endTransaction s

theorem Unanswered.requestRecordWord (h : s.Unanswered a) (k slot : Nat) (seq : BitVec 32) :
    s.Unanswered (a.requestRecordWord k slot seq) := by
  obtain ⟨-, heq⟩ | ⟨q, rest, -, heq⟩ := a.requestRecordWord_cases k slot seq
  · rw [heq]; exact h.records _
  · rw [heq]; exact h.writerRequest _ _

theorem Unanswered.disowned (h : s.Unanswered a) (again : Bool) : s.Unanswered (a.disownedResponse again) := by
  unfold disownedResponse
  split
  · exact h.writerRequest _ _
  · exact h.records _

theorem unanswered_recordResponse (hmode : s.mode = .resetting) (howner : s.arbiter.owner = some .record)
    (hwriter : (∃ k slot seq st, s.records.writer = some (.record k slot seq, st)) ∨
      ∃ again st, s.records.writer = some (.disowned false again, st)) (ok : Bool) : s.Unanswered (s.recordResponse ok) := by
  have hend := unanswered_endTransaction s
  obtain ⟨k, slot, seq, st, hw⟩ | ⟨again, st, hw⟩ := hwriter
  · have hresponse : s.recordResponse ok = s.endTransaction.recordWordResponse k slot seq ok := by
      simp only [recordResponse, howner, hw]
    rw [hresponse, recordWordResponse]
    split
    · have hm : s.endTransaction.mode = .resetting := hmode
      rw [abandonRecord]
      simp only [if_pos hm]
      exact hend.records _
    · split
      · exact hend.requestRecordWord _ _ _
      · exact (hend.records _).writerRequest _ _
  · have hresponse : s.recordResponse ok = s.endTransaction.disownedResponse again := by
      simp only [recordResponse, howner, hw]
    rw [hresponse]
    exact hend.disowned again

theorem unanswered_headWordAnswered (hmode : s.mode = .resetting) (howner : s.arbiter.owner = some .record)
    (hwriter : (∃ st, s.records.writer = some (.initialHead, st)) ∨
      (∃ p gen slot urgent st, s.records.writer = some (.head p gen slot urgent, st)) ∨
      ∃ again st, s.records.writer = some (.disowned true again, st)) (ok : Bool) : s.Unanswered (s.headWordAnswered ok) := by
  have hend := unanswered_endTransaction s
  have herror : s.endTransaction.headError ok = s.endTransaction := by
    have hm : s.endTransaction.mode = .resetting := hmode
    simp [headError, hm]
  obtain ⟨st, hw⟩ | ⟨p, gen, slot, urgent, st, hw⟩ | ⟨again, st, hw⟩ := hwriter
  · have hresponse : s.headWordAnswered ok = s.endTransaction.initialHeadResponse ok := by
      simp only [headWordAnswered, howner, hw]
    rw [hresponse, initialHeadResponse, herror]
    exact hend.records _
  · have hresponse : s.headWordAnswered ok = s.endTransaction.headResponse slot urgent ok := by
      simp only [headWordAnswered, howner, hw]
    rw [hresponse, headResponse, herror]
    exact (hend.records _).records _
  · have hresponse : s.headWordAnswered ok = s.endTransaction.disownedResponse again := by
      simp only [headWordAnswered, howner, hw]
    rw [hresponse]
    exact hend.disowned again

/-- Memory's answer to the initiator path's transaction (R123). -/
theorem initiatorResponse_eq (howner : s.arbiter.owner = some .initiator) {tk : Taken} (hport : s.port = .passing tk) (ok : Bool)
    (data : Word) : s.initiatorResponse ok data = s.initiatorAnswered tk ok data := by
  simp only [initiatorResponse, howner, hport]

theorem closeWatch_of_none (h : s.watch = none) (ok : Bool) (data : Word) : s.closeWatch ok data = s := by
  simp only [closeWatch, h]

theorem closeWatch_of_some {c : WatchContext} (h : s.watch = some c) (ok : Bool) (data : Word) :
    s.closeWatch ok data = { s.handOver (c.record s.time ok data) with watch := none } := by
  simp only [closeWatch, h]

/-- The answer to the initiator: the reply, the port FREE, and for a watched access its record (R123, R135). -/
theorem initiatorAnswered_eq (tk : Taken) (ok : Bool) (data : Word) : ∃ r w,
    (tk.disposition ≠ .watch → r = s.records ∧ w = s.watch) ∧
    (∀ c, tk.disposition = .watch → s.watch = some c → r = s.records.handOver (c.record s.time ok data) ∧ w = none) ∧
    s.initiatorAnswered tk ok data = { s with
      arbiter := { s.arbiter with outstanding := none }, port := .free
      reply := some (s.endTransaction.replyTo tk ok data), records := r, watch := w } := by
  by_cases hd : tk.disposition = .watch
  · cases hw : s.watch with
    | none =>
      refine ⟨s.records, s.watch, fun h => absurd hd h, ?_, ?_⟩
      · intro c _ hc
        exact nomatch hc
      · simp only [initiatorAnswered, if_pos hd]
        rw [closeWatch_of_none (by exact hw)]
        rfl
    | some c =>
      refine ⟨s.records.handOver (c.record s.time ok data), none, fun h => absurd hd h, fun c' _ hc => ?_, ?_⟩
      · obtain rfl := Option.some.inj hc
        exact ⟨rfl, rfl⟩
      · simp only [initiatorAnswered, if_pos hd]
        rw [closeWatch_of_some (c := c) (by exact hw)]
        rfl
  · refine ⟨s.records, s.watch, fun _ => ⟨rfl, rfl⟩, fun c h => absurd h hd, ?_⟩
    simp only [initiatorAnswered, if_neg hd]
    rfl

end State

/-! ## SOFT RESET (O22, O23) -/

theorem exec_softReset_ready {s : State} (hl : LinkReady s) :
    exec (.softReset (.whole [])) s = .next (s.settle (effectSoftReset [] (s.framed .ok (s.writeSent 0)))) :=
  frameHappening_write_accepted (c := softResetCommand) hl rfl rfl

theorem withdrawRecord_eq (s : State) : ∃ r, s.withdrawRecord = { s with
    records := r, arbiter := { s.arbiter with recordPlace := none } } := by
  unfold State.withdrawRecord
  cases h : s.arbiter.recordPlace with
  | none => exact ⟨s.records, by simp [← h]⟩
  | some q => exact ⟨_, rfl⟩

/-- The blocks at the SOFT RESET command, where no transaction is kept: the held write is answered, and what is not granted is
withdrawn (R23, R173). -/
theorem effectSoftReset_of_not_passing (s : State) (hport : ∀ tk, s.port ≠ .passing tk) : ∃ r,
    effectSoftReset [] s = { s with
      mode := .resetting, port := .free, reply := if s.port = .free then s.reply else some .error, records := r
      arbiter := { s.arbiter with drainPlace := none, recordPlace := none } } := by
  have hheld : ∃ r, s.resetHeld = { s with
      port := .free, reply := if s.port = .free then s.reply else some .error, records := r } := by
    unfold State.resetHeld
    cases hp : s.port with
    | free => exact ⟨s.records, by simp [← hp]⟩
    | held tk g => exact ⟨s.records.handOver (.refused g s.time .reset tk.tx.addr tk.tx.lanes), rfl⟩
    | passing tk => exact absurd hp (hport tk)
  obtain ⟨r, hr⟩ := hheld
  obtain ⟨q, hq⟩ := withdrawRecord_eq ((s.resetHeld.setMode .resetting).withdrawInitiator).withdrawDrain
  refine ⟨q, ?_⟩
  rw [effectSoftReset, State.resetHeld_setMode, hq, hr]
  rfl

theorem exec_initiatorResponse {s : State} (hrun : s.run = .running) (ok : Bool) (data : Word) :
    exec (.initiatorResponse ok data) s = .next (s.settle (s.initiatorResponse ok data)) :=
  happening_of_running hrun (fun a => a.initiatorResponse ok data)

theorem exec_drainStepResponse {s : State} (hrun : s.run = .running) (ok : Bool) :
    exec (.drainStepResponse ok) s = .next (s.settle (s.drainResponse ok)) :=
  happening_of_running hrun (fun a => a.drainResponse ok)

theorem exec_recordWordResponse {s : State} (hrun : s.run = .running) (ok : Bool) :
    exec (.recordWordResponse ok) s = .next (s.settle (s.recordResponse ok)) :=
  happening_of_running hrun (fun a => a.recordResponse ok)

theorem exec_headWordResponse {s : State} (hrun : s.run = .running) (ok : Bool) :
    exec (.headWordResponse ok) s = .next (s.settle (s.headWordAnswered ok)) :=
  happening_of_running hrun (fun a => a.headWordAnswered ok)

/-- In RESETTING memory's answer to a block has no effect but that the port is idle (R71, R153). -/
theorem exec_answered_in_resetting {s : State} {c : Instr} (hrun : s.run = .running) (hmode : s.mode = .resetting)
    (hanswered : s.answeredBy c) (howner : s.arbiter.owner ≠ some .initiator) :
    ∃ a, exec c s = .next (s.settle a) ∧ s.Unanswered a := by
  cases ho : s.arbiter.owner with
  | none => simp [State.answeredBy, ho] at hanswered
  | some o =>
    unfold State.answeredBy at hanswered
    split at hanswered
    · next hd => exact ⟨_, exec_drainStepResponse hrun _, State.unanswered_drainResponse hmode hd hanswered _⟩
    · next hr => exact ⟨_, exec_recordWordResponse hrun _, State.unanswered_recordResponse hmode hr hanswered _⟩
    · next hr => exact ⟨_, exec_headWordResponse hrun _, State.unanswered_headWordAnswered hmode hr hanswered _⟩
    · next hi => exact absurd hi howner
    · exact hanswered.elim

theorem answered_initiator {s : State} {c : Instr} (hanswered : s.answeredBy c) (howner : s.arbiter.owner = some .initiator) :
    ∃ ok data tk, c = .initiatorResponse ok data ∧ s.port = .passing tk := by
  simp only [State.answeredBy, howner] at hanswered
  cases c with
  | initiatorResponse ok data =>
    obtain ⟨tk, h⟩ := hanswered
    exact ⟨ok, data, tk, rfl, h⟩
  | _ => exact hanswered.elim

/-- Settles O22. -/
theorem softResetCompletesWithAnIdlePort : Obligations.SoftResetCompletesWithAnIdlePort := by
  unfold Obligations.SoftResetCompletesWithAnIdlePort
  intro w x done
  have hfinal : ∀ (s : State) (kept : Option Taken), s.run = .running → s.softResetTo kept = done s s.link kept s.reply := by
    intro s kept hrun
    unfold State.softResetTo
    rw [hrun]
    rfl
  refine ⟨fun s hs hl hidle hport => ?_, fun s hrun hmode hidle => ?_, fun s c hs hrun hmode hanswered => ?_⟩
  · obtain ⟨r, heffect⟩ := effectSoftReset_of_not_passing (s.framed .ok (s.writeSent 0)) hport
    rw [exec_softReset_ready hl, State.settle_softReset_free s (by rw [heffect]) (by rw [heffect]; exact hidle)
      (by rw [heffect]; exact fun _ h => nomatch h), hfinal _ _ (by rw [heffect]; exact hl.1), heffect]
    rfl
  · have hexec : exec .softResetCompletion s = .next (s.settle s.settleSoftReset) := happening_of_running hrun _
    have hsettle : s.settle s.settleSoftReset = s.settle s := by
      have hdone : s.softResetDone = true := by simp [State.softResetDone, hmode, hidle]
      obtain ⟨q, -, heq⟩ := s.completeSoftReset_cases
      have hbegin : s.completeSoftReset.canBeginRecord = false := by rw [heq]; rfl
      rw [State.settle_resetting s hmode hidle, State.settleSoftReset, if_pos hdone, State.settle,
        State.takeNext_of_not_canTake _ (by rw [heq]; rfl), State.settleFlush_of_not_done _ (by rw [heq]; rfl),
        State.settleSoftReset_of_not_done _ (by rw [heq]; rfl), State.settleWriter_of_not_begin _ hbegin]
    rw [hexec, hsettle]
    refine ⟨fun hport => ?_, fun tk hport => ?_⟩
    · rw [State.settle_softReset_free s hmode hidle (by rw [hport]; exact fun _ h => nomatch h), hfinal s none hrun]
    · rw [State.settle_softReset_kept s hmode hidle hport, hfinal s (some tk) hrun]
  · refine ⟨fun howner => ?_, fun howner => ?_⟩
    · obtain ⟨a, hexec, ha⟩ := exec_answered_in_resetting hrun hmode hanswered howner
      have hamode : a.mode = .resetting := ha.mode.trans hmode
      rw [hexec]
      refine ⟨fun hport => ?_, fun tk hport => ?_⟩
      · rw [State.settle_softReset_free s hamode ha.outstanding (by rw [ha.port, hport]; exact fun _ h => nomatch h), ha.softResetTo,
          hfinal s none hrun]
      · rw [State.settle_softReset_kept s hamode ha.outstanding (ha.port.trans hport), ha.softResetTo, hfinal s (some tk) hrun]
    · obtain ⟨ok, data, tk, rfl, hport⟩ := answered_initiator hanswered howner
      obtain ⟨r, w', -, -, heq⟩ := s.initiatorAnswered_eq tk ok data
      rw [exec_initiatorResponse hrun, State.initiatorResponse_eq howner hport, State.settle_softReset_free s (by rw [heq]; exact hmode)
        (by rw [heq]) (by rw [heq]; exact fun _ h => nomatch h), hfinal _ _ (by rw [heq]; exact hrun), heq]
      exact ⟨s.endTransaction.replyTo tk ok data, rfl⟩

/-- In RESETTING nothing is due while a transaction is outstanding (R173, R174). -/
theorem nothingDue_of_resetting_busy {a : State} (hmode : a.mode = .resetting) (hbusy : a.arbiter.outstanding ≠ none) : NothingDue a := by
  obtain ⟨p, hp⟩ := Option.ne_none_iff_exists'.mp hbusy
  refine ⟨?_, ?_, ?_, ?_, ?_⟩ <;>
    simp [State.canTake, State.flushDone, State.softResetDone, State.canBeginRecord, State.canGrant, hmode, hp]

/-- The blocks at the SOFT RESET command, where a transaction is kept taken: a request not granted is withdrawn (R113, R173). -/
theorem effectSoftReset_of_passing {s : State} {tk : Taken} (hport : s.port = .passing tk) : ∃ r,
    effectSoftReset [] s = { s with
      mode := .resetting, records := r
      port := if s.arbiter.initiatorPlace = none then s.port else .passing { tk with disposition := .pass, window := none }
      watch := if s.arbiter.initiatorPlace = none then s.watch else none
      arbiter := { s.arbiter with drainPlace := none, recordPlace := none, initiatorPlace := none } } := by
  have hheld : s.resetHeld = s := by simp only [State.resetHeld, hport]
  obtain ⟨r, hr⟩ := withdrawRecord_eq ((s.setMode .resetting).withdrawInitiator).withdrawDrain
  refine ⟨r, ?_⟩
  rw [effectSoftReset, State.resetHeld_setMode, hheld, hr]
  unfold State.withdrawInitiator
  cases hi : s.arbiter.initiatorPlace with
  | none => simp [State.withdrawDrain, State.withdraw, State.setMode, State.setArbiter, hport, hi]
  | some q => simp [State.withdrawDrain, State.withdraw, State.setMode, State.setArbiter, hport, hi]

/-- Settles O23. -/
theorem softResetWithABusyPort : Obligations.SoftResetWithABusyPort := by
  intro s hs hl hbusy
  have hsettle : ∀ e : State, e.mode = .resetting → e.arbiter.outstanding = s.arbiter.outstanding → s.settle e = e.refreshIrq :=
    fun e hm ho => e.settle_of_nothingDue s (nothingDue_of_resetting_busy hm (ho ▸ hbusy))
  refine ⟨_, exec_softReset_ready hl, ?_⟩
  by_cases hpass : ∃ tk, s.port = .passing tk
  · obtain ⟨tk, hport⟩ := hpass
    obtain ⟨r, heffect⟩ := effectSoftReset_of_passing (s := s.framed .ok (s.writeSent 0)) hport
    rw [hsettle _ (by rw [heffect]) (by rw [heffect]; rfl), heffect]
    refine ⟨rfl, rfl, rfl, rfl, fun tk' h => ⟨rfl, fun hi => ⟨if_pos hi, if_pos hi⟩, fun hi => ?_⟩,
      fun _ _ _ _ h => (nomatch hport.symm.trans h), fun h => (nomatch hport.symm.trans h), rfl, rfl, rfl, rfl, rfl, rfl⟩
    obtain rfl := Port.passing.inj (hport.symm.trans h)
    exact ⟨if_neg hi, if_neg hi⟩
  · have hport : ∀ tk, s.port ≠ .passing tk := fun tk h => hpass ⟨tk, h⟩
    obtain ⟨r, heffect⟩ := effectSoftReset_of_not_passing (s.framed .ok (s.writeSent 0)) hport
    rw [hsettle _ (by rw [heffect]) (by rw [heffect]; rfl), heffect]
    refine ⟨rfl, rfl, rfl, rfl, fun tk h => absurd h (hport tk), fun tk g r n h => ⟨rfl, if_neg fun hf => ?_⟩,
      fun h => ⟨rfl, if_pos h⟩, rfl, rfl, rfl, rfl, rfl, rfl⟩
    exact nomatch hf.symm.trans h

/-! ## Memory's answer to the initiator path (O50) -/

theorem replyTo_error (s : State) (tk : Taken) (data : Word) : s.replyTo tk false data = .error := by
  unfold State.replyTo
  cases tk.disposition <;> rfl

theorem replyTo_plain {s : State} {tk : Taken} (h : ∀ g, tk.disposition ≠ .overlay g) (ok : Bool) (data : Word) :
    s.replyTo tk ok data = plainReply tk.tx ok data := by
  unfold State.replyTo
  cases hd : tk.disposition with
  | overlay g => exact absurd hd (h g)
  | pass => rfl
  | tailSnoop => rfl
  | watch => rfl
  | hold => rfl

theorem replyTo_overlay {s : State} {tk : Taken} {g : GroupNum} (h : tk.disposition = .overlay g) (data : Word) :
    s.replyTo tk true data = .okRead ((s.group g).overlayWord tk.tx.addr data) := by
  simp [State.replyTo, h]

/-- Outside RESETTING nothing follows memory's answer to the initiator path but a grant and the record begun (R122, R149). -/
theorem follows_initiatorAnswered {s : State} (hs : NothingDue s) (hmode : s.mode ≠ .resetting) (tk : Taken) (ok : Bool) (data : Word) :
    (s.initiatorAnswered tk ok data).Follows (s.settle (s.initiatorAnswered tk ok data)) := by
  obtain ⟨htake, hflush, hreset, -, -⟩ := hs
  obtain ⟨r, w, -, -, heq⟩ := s.initiatorAnswered_eq tk ok data
  rw [heq]
  exact State.follows_settle s htake hflush (by simp [State.softResetDone, hmode])

theorem initiatorAnswer_reply {s u : State} {tk : Taken} {ok : Bool} {data : Word}
    (hu : u = s.settle (s.initiatorAnswered tk ok data)) (hs : NothingDue s) :
    u.port = .free ∧ u.reply = some (s.replyTo tk ok data) ∧ (s.mode ≠ .resetting → u.groups = s.groups ∧ u.windows = s.windows) := by
  obtain ⟨r, w, -, -, heq⟩ := s.initiatorAnswered_eq tk ok data
  by_cases hr : s.mode = .resetting
  · have hsettle := State.settle_softReset_free s (a := s.initiatorAnswered tk ok data) (by rw [heq]; exact hr) (by rw [heq])
      (by rw [heq]; exact fun _ h => nomatch h)
    rw [hu, hsettle, heq]
    exact ⟨rfl, rfl, fun h => absurd hr h⟩
  · have hfollows := follows_initiatorAnswered hs hr tk ok data
    rw [heq] at hfollows
    rw [hu, heq]
    exact ⟨hfollows.port, hfollows.reply, fun _ => ⟨hfollows.groups, hfollows.windows⟩⟩

/-- One record handed over stands at the tail of the queue, or is counted as lost (R142, R143). -/
theorem Reports.of_single {s t : State} {b : RecordBody} (h : Reports s t [b]) :
    t.records.queue =
        (if s.records.enabled = true ∧ s.records.queue.length < Config.recordQueueSize then
          s.records.queue ++ [{ body := b, urgent := urgentFor s.records.urgencyMask b }]
        else s.records.queue) ∧
      t.records.lostCount =
        (if s.records.enabled = true ∧ Config.recordQueueSize ≤ s.records.queue.length then satAdd s.records.lostCount 1
        else s.records.lostCount) :=
  ⟨h.1.trans (congrArg RecordUnit.queue (RecordUnit.handOver_eq _ b)),
    h.2.trans (congrArg RecordUnit.lostCount (RecordUnit.handOver_eq _ b))⟩

theorem recordData_eq (w : WatchContext) (ok : Bool) (data : Word) :
    w.recordData ok data = if w.capture = false then 0 else if w.dir = .write then w.writeData else if ok = true then data else 0 := by
  unfold WatchContext.recordData
  cases w.capture <;> cases w.dir <;> rfl

/-- Settles O50. -/
theorem memoryAnswersTheInitiator : Obligations.MemoryAnswersTheInitiator := by
  refine ⟨fun s ok data hs hrun => ⟨fun howner => ?_, fun tk howner hport => ?_⟩,
    fun s ok data tk w hs hrun hmode howner hport hwatch hw => ?_⟩
  · have hnone : s.initiatorResponse ok data = s := by
      unfold State.initiatorResponse
      split
      · next h _ => exact absurd h howner
      · rfl
    rw [exec_initiatorResponse hrun, hnone, State.settle_of_settled _ _ hs]
  · obtain ⟨hfree, hreply, hkept⟩ := initiatorAnswer_reply (tk := tk) (ok := ok) (data := data) rfl hs.1
    refine ⟨_, by rw [exec_initiatorResponse hrun, State.initiatorResponse_eq howner hport], hfree, hkept, ?_, ?_, ?_, ?_⟩
    · rintro rfl
      rw [hreply, replyTo_error]
    · rintro rfl hdir hplain
      rw [hreply, replyTo_plain hplain, plainReply, hdir]
      rfl
    · rintro rfl hdir hplain
      rw [hreply, replyTo_plain hplain, plainReply, hdir]
      rfl
    · rintro g hd rfl staged newest
      exact ⟨_, hreply.trans (congrArg some (replyTo_overlay hd data)), fun k hk => overlayWord_lane _ _ _ hk⟩
  · have hfollows := follows_initiatorAnswered hs.1 hmode tk ok data
    obtain ⟨r, w', -, hr, heq⟩ := s.initiatorAnswered_eq tk ok data
    obtain ⟨rfl, rfl⟩ := hr w hwatch hw
    have hrecord : w.record s.time ok data = .watch w.window w.takeTime w.addr w.dir w.lanes
        (if w.capture = false then 0 else if w.dir = .write then w.writeData else if ok = true then data else 0) (!ok) s.time
        w.grantsAhead := by
      rw [WatchContext.record, recordData_eq]
    rw [heq] at hfollows
    refine ⟨_, by rw [exec_initiatorResponse hrun, State.initiatorResponse_eq howner hport, heq], hfollows.watch rfl, hfollows.link, ?_⟩
    obtain ⟨hqueue, hlost⟩ := (hfollows.reports (Reports.single (s := s) rfl)).of_single
    intro shown record
    exact ⟨hqueue.trans (by rw [hrecord]; rfl), hlost⟩

end Sys2Proof.Machine
end

section
/-! PROOF. The take (O52) and the completion of the flush (O58), where the memory port is busy and no record is due. -/

namespace Sys2Proof.Machine

/-! ## Marker words (R197) -/

/-- A marker word without the abandoned flag is the sequence. -/
theorem markerWord_false (n : Nat) : markerWord false (BitVec.ofNat 31 n) = BitVec.ofNat 32 (n % 2 ^ 31) := by
  apply BitVec.eq_of_toNat_eq
  rw [markerWord, BitVec.toNat_append, BitVec.toNat_ofNat, BitVec.toNat_ofNat]
  have hlt : n % 2 ^ 31 < 2 ^ 32 := by omega
  rw [Nat.mod_eq_of_lt hlt]
  simp

/-- The abandoned flag is bit 31. -/
theorem markerWord_true (n : Nat) : markerWord true (BitVec.ofNat 31 n) = BitVec.ofNat 32 (2 ^ 31 + n % 2 ^ 31) := by
  apply BitVec.eq_of_toNat_eq
  rw [markerWord, BitVec.toNat_append, BitVec.toNat_ofNat, BitVec.toNat_ofNat]
  have hlt : n % 2 ^ 31 < 2 ^ 31 := by omega
  rw [← Nat.shiftLeft_add_eq_or_of_lt hlt, Nat.mod_eq_of_lt (by omega : 2 ^ 31 + n % 2 ^ 31 < 2 ^ 32)]
  simp [Nat.shiftLeft_eq]

theorem stepRequest_start {x : Group} {m : Addr} (h : x.marker = some m) (kind : DrainKind) :
    x.stepRequest kind .start = markerWrite m ((2 * x.epoch.toNat + 1) % 2 ^ 31) := by
  simp only [Group.stepRequest, h, startSequence, markerWord_false]
  rfl

theorem stepRequest_finish {x : Group} {m : Addr} (h : x.marker = some m) :
    x.stepRequest .epoch .finish = markerWrite m ((2 * x.epoch.toNat + 2) % 2 ^ 31) := by
  simp only [Group.stepRequest, h, endSequence, markerWord_false]
  rfl

theorem stepRequest_abandonEnd {x : Group} {m : Addr} (h : x.marker = some m) :
    x.stepRequest .abandonEnd .finish = markerWrite m (2 ^ 31 + (2 * (x.epoch - 1).toNat + 2) % 2 ^ 31) := by
  simp only [Group.stepRequest, h, endSequence, markerWord_true]
  rfl

theorem stepRequest_entry {x : Group} {e : Entry} {tail : List Entry} (h : x.outgoing = e :: tail) (kind : DrainKind) :
    x.stepRequest kind .entry = e.write := by
  simp only [Group.stepRequest, h]
  rfl

theorem progress_taken_of_begun {p : Progress} (h : p.begun = true) (now : Time) : p.taken now = p := if_pos h

theorem progress_taken_of_not_begun {p : Progress} (h : p.begun = false) (now : Time) :
    p.taken now = { p with begun := true, entriesWritten := 0, startTime := now } := if_neg (by simp [h])

theorem takeOutcome_first_start {x : Group} (ha : x.progress.abandonPending = false) (hb : x.progress.begun = false) {m : Addr}
    (hm : x.marker = some m) : x.takeOutcome = .step .epoch .start := by
  simp [Group.takeOutcome, Group.firstStep, ha, hb, hm]

theorem takeOutcome_first_entry {x : Group} (ha : x.progress.abandonPending = false) (hb : x.progress.begun = false)
    (hm : x.marker = none) {e : Entry} {tail : List Entry} (ho : x.outgoing = e :: tail) : x.takeOutcome = .step .epoch .entry := by
  simp [Group.takeOutcome, Group.firstStep, ha, hb, hm, ho]

theorem takeOutcome_of_fault {x : Group} (ha : x.progress.abandonPending = false) (hb : x.progress.begun = true) {step : Step}
    (hf : x.faultStep = some step) : x.takeOutcome = .step .epoch step := by
  simp [Group.takeOutcome, ha, hb, hf]

/-! ## The take that asks for a step (R58) -/

namespace State
variable {s : State}

/-- Group `g` taken from the head of the queue, `rest` waiting behind it. -/
def taken (s : State) (g : GroupNum) (rest : List GroupNum) : State :=
  { s with
    commitQueue := rest
    groups := s.groups.set g { s.group g with state := .draining, progress := (s.group g).progress.taken s.time } }

@[simp] theorem taken_group_self (s : State) (g : GroupNum) (rest : List GroupNum) :
    (s.taken g rest).group g = { s.group g with state := .draining, progress := (s.group g).progress.taken s.time } := by
  simp [taken, State.group]

/-- A take that asks for a step makes the engine BUSY with it, and no take follows (R58). -/
theorem takeNext_of_step (hmode : s.mode ≠ .resetting) (hengine : s.engine = none) {g : GroupNum} {rest : List GroupNum}
    (hqueue : s.commitQueue = g :: rest) {kind : DrainKind} {step : Step} (hstep : (s.group g).takeOutcome = .step kind step) :
    s.takeNext = (s.taken g rest).requestStep g kind step := by
  have hcan : s.canTake = true := by simp [canTake, hmode, hengine, hqueue]
  have hfirst : s.takeAll none [] = (s.taken g rest).requestStep g kind step := by
    rw [takeAll, hqueue, List.length_cons]
    obtain ⟨hno, -⟩ | ⟨h, tail, -, hq, ⟨k, st, hout, heq⟩ | ⟨hdone, -⟩⟩ := s.takeChain_succ_cases none [] rest.length
    · exact nomatch hcan.symm.trans hno
    · obtain ⟨rfl, rfl⟩ := List.cons.inj (hqueue.symm.trans hq)
      obtain ⟨rfl, rfl⟩ := TakeOutcome.step.inj (hstep.symm.trans hout)
      rw [heq, groupTurn_nil]
      rfl
    · obtain ⟨rfl, rfl⟩ := List.cons.inj (hqueue.symm.trans hq)
      exact nomatch hstep.symm.trans hdone
  rw [takeNext, hfirst]
  exact takeAll_of_not_canTake _ ((canTake_eq_false_iff _).mpr (.inl (by simp [requestStep_eq])))

/-- Nothing is due with the engine and the memory port busy and no record to begin. -/
theorem nothingDue_of_busy (hengine : s.engine ≠ none) (hbusy : s.arbiter.outstanding ≠ none)
    (hrecord : s.canBeginRecord = false) : NothingDue s := by
  obtain ⟨c, hc⟩ := Option.ne_none_iff_exists'.mp hengine
  obtain ⟨p, hp⟩ := Option.ne_none_iff_exists'.mp hbusy
  refine ⟨?_, ?_, ?_, hrecord, ?_⟩ <;> simp [canTake, flushDone, softResetDone, canGrant, hc, hp]

end State

theorem exec_drainTake {s : State} (hrun : s.run = .running) : exec .drainTake s = .next (s.settle s.takeNext) :=
  happening_of_running hrun State.takeNext

theorem exec_flushComplete {s : State} (hrun : s.run = .running) : exec .flushComplete s = .next (s.settle s.settleFlush) :=
  happening_of_running hrun State.settleFlush

/-- The row of the take, with the memory port busy and no record to begin. -/
theorem exec_drainTake_of_step {s : State} (hrun : s.run = .running) (hmode : s.mode ≠ .resetting) (hengine : s.engine = none)
    {g : GroupNum} {rest : List GroupNum} (hqueue : s.commitQueue = g :: rest) (hbusy : s.arbiter.outstanding ≠ none)
    (hrecord : s.canBeginRecord = false) (hirq : s.irq = irqCondition s.records s.link.flags) {kind : DrainKind} {step : Step}
    (hstep : (s.group g).takeOutcome = .step kind step) {p : Progress} (hp : (s.group g).progress.taken s.time = p) {q : Request}
    (hq : (s.group g).stepRequest kind step = q) :
    exec .drainTake s = .next { s with
      commitQueue := rest, engine := some { group := g, kind := kind, step := step, status := .requested }
      arbiter := { s.arbiter with drainPlace := some q }
      groups := s.groups.set g { s.group g with state := .draining, progress := p } } := by
  have hasks : ((s.taken g rest).group g).stepRequest kind step = q := by
    rw [State.taken_group_self, ← hq]
    cases step <;> rfl
  rw [exec_drainTake hrun, State.takeNext_of_step hmode hengine hqueue hstep, State.requestStep_eq, hasks, State.taken, hp]
  rw [State.settle_of_settled]
  refine ⟨State.nothingDue_of_busy (fun h => nomatch h) hbusy hrecord, hirq⟩

/-- Settles O52. -/
theorem drainTakeFollowsTheProgressRecord : Obligations.DrainTakeFollowsTheProgressRecord := by
  intro s hrun
  refine ⟨fun hs => ?_, fun g rest hmode hengine hqueue hbusy hrecord hirq => ?_⟩
  · rw [exec_drainTake hrun, State.takeNext_of_not_canTake s hs.1.1, State.settle_of_settled _ _ hs]
  intro x begun taken
  have hrow := @exec_drainTake_of_step s hrun hmode hengine g rest hqueue hbusy hrecord hirq
  have hbegun : x.progress.begun = true → x.progress.taken s.time = x.progress := fun h => progress_taken_of_begun h _
  have hnew : x.progress.begun = false → x.progress.taken s.time = begun := fun h => progress_taken_of_not_begun h _
  refine ⟨fun m ha hb hm => ?_, fun m ha hb hm => ?_, fun m ha hb hm => ?_, fun m ha hb hf hm => ?_, fun e tail ha hb hm ho => ?_,
    fun e tail ha hb hf ho => ?_, fun m ha hb hf hm => ?_⟩
  · exact hrow (if_pos ha) (hnew hb) (stepRequest_abandonEnd hm)
  · exact hrow (if_pos ha) (hbegun hb) (stepRequest_abandonEnd hm)
  · exact hrow (takeOutcome_first_start ha hb hm) (hnew hb) (stepRequest_start hm _)
  · exact hrow (takeOutcome_of_fault ha hb hf) (hbegun hb) (stepRequest_start hm _)
  · exact hrow (takeOutcome_first_entry ha hb hm ho) (hnew hb) (stepRequest_entry ho _)
  · exact hrow (takeOutcome_of_fault ha hb hf) (hbegun hb) (stepRequest_entry ho _)
  · exact hrow (takeOutcome_of_fault ha hb hf) (hbegun hb) (stepRequest_finish hm)

/-- The flush that completes with the memory port busy and no record to begin (R171). -/
theorem exec_flushComplete_of_done {s : State} (hrun : s.run = .running) (hdone : s.flushDone = true) (hrecord : s.canBeginRecord = false)
    (hirq : s.irq = irqCondition s.records s.link.flags) (hbusy : s.arbiter.outstanding ≠ none) :
    exec .flushComplete s = .next (s.setMode .bypass).passHeld := by
  rw [exec_flushComplete hrun, State.settleFlush, if_pos hdone, State.completeFlush]
  obtain ⟨hmode, -, hqueue, -⟩ := State.flushDone_parts hdone
  obtain ⟨c, hc⟩ := Option.ne_none_iff_exists'.mp hbusy
  have hrecord' : (s.setMode .bypass).canBeginRecord = false := by
    rw [← hrecord, State.canBeginRecord, State.canBeginRecord, hmode]
    rfl
  have hcalm : ∀ p a, a.outstanding = s.arbiter.outstanding → Settled { s with mode := .bypass, port := p, arbiter := a } := by
    intro p a ha
    refine ⟨⟨?_, ?_, ?_, hrecord', ?_⟩, hirq⟩ <;>
      simp [State.canTake, State.flushDone, State.softResetDone, State.canGrant, hqueue, ha, hc]
  rcases (s.setMode .bypass).passHeld_cases with ⟨-, heq⟩ | ⟨t, q, -, heq⟩
  · rw [heq]
    exact congrArg _ (State.settle_of_settled _ _ (hcalm s.port s.arbiter rfl))
  · rw [heq]
    exact congrArg _ (State.settle_of_settled _ _ (hcalm _ _ rfl))

/-- Settles O58. -/
theorem flushCompletesInBypass : Obligations.FlushCompletesInBypass := by
  intro s hrun
  refine ⟨fun hs => ?_, fun hmode hengine hqueue hgroups hrecord hirq hbusy => ?_⟩
  · rw [exec_flushComplete hrun, State.settleFlush_of_not_done s hs.1.2.1, State.settle_of_settled _ _ hs]
  have hdone : s.flushDone = true := by
    simp only [State.flushDone, Bool.and_eq_true, beq_iff_eq, List.isEmpty_iff, Option.isNone_iff_eq_none]
    refine ⟨⟨⟨hmode, List.all_eq_true.mpr fun x hx => ?_⟩, hqueue⟩, hengine⟩
    obtain ⟨g, rfl⟩ := (Table8.mem_toList_iff _ _).mp hx
    exact (flushed_iff _).mpr (hgroups g)
  rw [exec_flushComplete_of_done hrun hdone hrecord hirq hbusy]
  refine ⟨fun hport => ?_, fun tk h k hport => ?_⟩
  · exact congrArg _ (State.passHeld_of_not_held (s.setMode .bypass) hport)
  · exact congrArg _ (State.passHeld_eq (s.setMode .bypass) tk h .mode k hport)

end Sys2Proof.Machine
end

section
/-! PROOF. The words of a record (O59). -/

namespace Sys2Proof.Machine

theorem toNat_append_eq_add {n m : Nat} (x : BitVec n) (y : BitVec m) : (x ++ y).toNat = y.toNat + 2 ^ m * x.toNat := by
  rw [BitVec.toNat_append, ← Nat.shiftLeft_add_eq_or_of_lt y.isLt, Nat.shiftLeft_eq, Nat.mul_comm, Nat.add_comm]

section
variable (q : QueuedRecord) (seq : BitVec 32)

/-- Word 0 of a record, place by place (TABLE 11(e)). -/
theorem recordWord_zero :
    (recordWord q seq 0).toNat = q.body.fields.kind.toNat + 2 ^ 8 * q.body.fields.source.toNat + 2 ^ 16 * q.urgent.toNat +
      2 ^ 17 * q.body.fields.error.toNat + 2 ^ 18 * q.body.fields.isWrite.toNat + 2 ^ 24 * q.body.fields.lanes.toNat +
      2 ^ 28 * q.body.fields.code.toNat := by
  simp only [recordWord, toNat_append_eq_add, BitVec.toNat_ofBool, BitVec.toNat_ofNat]
  omega

theorem recordWord_one : (recordWord q seq 1).toNat = q.body.fields.firstTime.toNat % 2 ^ 32 := by
  simp [recordWord]

theorem recordWord_two {n : Nat} (hn : n < 65536) (h : q.body.fields.firstAux = n) :
    (recordWord q seq 2).toNat = q.body.fields.firstTime.toNat / 2 ^ 32 + 2 ^ 16 * n := by
  have ht := q.body.fields.firstTime.isLt
  simp only [recordWord, toNat_append_eq_add, BitVec.toNat_ofNat, BitVec.extractLsb'_toNat, Nat.shiftRight_eq_div_pow, h]
  omega

theorem recordWord_five : (recordWord q seq 5).toNat = q.body.fields.secondTime.toNat % 2 ^ 32 := by
  simp [recordWord]

theorem recordWord_six {n : Nat} (hn : n < 65536) (h : q.body.fields.secondAux = n) :
    (recordWord q seq 6).toNat = q.body.fields.secondTime.toNat / 2 ^ 32 + 2 ^ 16 * n := by
  have ht := q.body.fields.secondTime.isLt
  simp only [recordWord, toNat_append_eq_add, BitVec.toNat_ofNat, BitVec.extractLsb'_toNat, Nat.shiftRight_eq_div_pow, h]
  omega

theorem recordWord_six_of_no_aux (h : q.body.fields.secondAux = 0) :
    (recordWord q seq 6).toNat = q.body.fields.secondTime.toNat / 2 ^ 32 := by
  simpa using recordWord_six q seq (by decide) h

theorem recordWord_two_of_no_aux (h : q.body.fields.firstAux = 0) :
    (recordWord q seq 2).toNat = q.body.fields.firstTime.toNat / 2 ^ 32 := by
  simpa using recordWord_two q seq (by decide) h

theorem recordWord_six_of_no_second (ht : q.body.fields.secondTime = 0) (h : q.body.fields.secondAux = 0) : recordWord q seq 6 = 0 := by
  have hword : recordWord q seq 6 = BitVec.ofNat 16 0 ++ (0 : Time).extractLsb' 32 16 := by rw [recordWord, ht, h]
  rw [hword]
  decide

end

theorem sourceByte_toNat (i : Fin 8) : (sourceByte i).toNat = i.val := by revert i; decide

/-- Settles O59. -/
theorem recordWordsHoldTheContents : Obligations.RecordWordsHoldTheContents := by
  intro seq urgent
  refine ⟨fun w tt rt a d l x e ga hga => ?_, fun g ep n sch st et hn => ?_, fun g t missed a l => ?_, fun g t cause k hk => ?_,
    fun g t step a => ?_, fun g t cause a l => ?_, fun g t epoch dropped hd => ?_, fun t count hc => ?_⟩
  · intro word
    refine ⟨?_, recordWord_one _ _, recordWord_two _ _ hga rfl, rfl, rfl, recordWord_five _ _, recordWord_six_of_no_aux _ _ rfl, rfl⟩
    rw [recordWord_zero]
    simp [RecordBody.fields, sourceByte_toNat]
  · intro word
    have hep := ep.isLt
    have hsch := sch.isLt
    refine ⟨?_, recordWord_one _ _, ?_, ?_, ?_, recordWord_five _ _, ?_, rfl⟩
    · rw [recordWord_zero]
      simp [RecordBody.fields, sourceByte_toNat]
    · rw [recordWord_two _ _ (n := ep.toNat % 2 ^ 16) (by omega) (by simp [RecordBody.fields])]
      rfl
    · simp [word, recordWord, RecordBody.fields]
    · simp only [word, recordWord, RecordBody.fields, toNat_append_eq_add, BitVec.toNat_ofNat, BitVec.extractLsb'_toNat,
        Nat.shiftRight_eq_div_pow]
      omega
    · rw [recordWord_six _ _ (n := ep.toNat / 2 ^ 16) (by omega)
        (by simp only [RecordBody.fields, BitVec.extractLsb'_toNat, Nat.shiftRight_eq_div_pow]; omega)]
      rfl
  · intro word
    refine ⟨?_, recordWord_one _ _, recordWord_two_of_no_aux _ _ rfl, rfl, rfl, recordWord_five _ _, recordWord_six_of_no_aux _ _ rfl,
      rfl⟩
    rw [recordWord_zero]
    simp [RecordBody.fields, sourceByte_toNat]
  · intro word code
    refine ⟨?_, recordWord_one _ _, recordWord_two _ _ hk rfl, rfl, rfl, rfl, recordWord_six_of_no_second _ _ rfl rfl, rfl⟩
    rw [recordWord_zero]
    cases cause <;> simp [RecordBody.fields, sourceByte_toNat, OverrunCause.code, code]
  · intro word code
    refine ⟨?_, recordWord_one _ _, recordWord_two_of_no_aux _ _ rfl, rfl, rfl, rfl, recordWord_six_of_no_second _ _ rfl rfl, rfl⟩
    rw [recordWord_zero]
    cases step <;> simp [RecordBody.fields, sourceByte_toNat, Step.code, code]
  · intro word code
    refine ⟨?_, recordWord_one _ _, recordWord_two_of_no_aux _ _ rfl, rfl, rfl, rfl, recordWord_six_of_no_second _ _ rfl rfl, rfl⟩
    rw [recordWord_zero]
    cases cause <;> simp [RecordBody.fields, sourceByte_toNat, RefusedCause.code, code]
  · intro word
    refine ⟨?_, recordWord_one _ _, recordWord_two _ _ (by omega) rfl, rfl, rfl, rfl, recordWord_six_of_no_second _ _ rfl rfl, rfl⟩
    rw [recordWord_zero]
    simp [RecordBody.fields, sourceByte_toNat]
  · intro word
    refine ⟨?_, recordWord_one _ _, recordWord_two _ _ hc rfl, rfl, rfl, rfl, recordWord_six_of_no_second _ _ rfl rfl, rfl⟩
    rw [recordWord_zero]
    simp [RecordBody.fields]

end Sys2Proof.Machine
end

section
/-! PROOF. RING SET (O39, O40). -/

namespace Sys2Proof.Machine

theorem exec_ringSet (ev : FrameEvent) (s : State) : exec (.ringSet ev) s = frameHappening s ringSetCommand ev := rfl

/-! ## The parameters (R145) -/

theorem ringParams_parse (p : RingParams) (hbase : p.base < 2 ^ 32) (hhead : p.headAddr < 2 ^ 32) (htail : p.tailAddr < 2 ^ 32)
    (hcapacity : p.capacity < 65536) (hthreshold : p.threshold < 65536) :
    RingParams.parse p.bytes = { p with enable := some true } := by
  simp [RingParams.parse, RingParams.bytes, flagByte,
    Nat.mod_eq_of_lt hcapacity, Nat.mod_eq_of_lt hthreshold, yesNo]
  omega

theorem ringBytes_length (p : RingParams) : p.bytes.length = 18 := by
  simp [RingParams.bytes, flagByte, beBytes_length]

theorem ringInArea_iff (p : RingParams) (z : Nat) : p.inArea z = true ↔ p.base ≤ z ∧ z < p.base + 32 * p.capacity :=
  decide_eq_true_iff

/-- PARAM, value by value (R145). -/
theorem ringBadValues_iff (p : RingParams) :
    p.badValues = true ↔
      p.base % 32 ≠ 0 ∨ p.capacity ∉ [16, 32, 64, 128, 256, 512, 1024, 2048, 4096] ∨ 2 ^ 32 < p.base + 32 * p.capacity ∨
        p.headAddr % 4 ≠ 0 ∨ p.tailAddr % 4 ≠ 0 ∨ p.headAddr = p.tailAddr ∨
        (p.base ≤ p.headAddr ∧ p.headAddr < p.base + 32 * p.capacity) ∨
        (p.base ≤ p.tailAddr ∧ p.tailAddr < p.base + 32 * p.capacity) ∨ p.capacity ≤ p.threshold := by
  simp only [RingParams.badValues, Bool.or_eq_true, ringInArea_iff, bne_iff_ne, beq_iff_eq, decide_eq_true_eq, or_assoc,
    Bool.not_eq_true', ← Bool.not_eq_true, List.contains_iff_mem]
  rfl

theorem windowMeets_iff (s : State) (base size : Nat) :
    s.windowMeets base size = true ↔
      ∃ w z, (s.windows.get w).enabled = true ∧ (base ≤ z ∧ z < base + size) ∧ (s.windows.get w).base.toNat ≤ z ∧
        z < (s.windows.get w).base.toNat + (s.windows.get w).size.toNat := by
  simp only [State.windowMeets, Table8.any_toList_iff, Bool.and_eq_true, rangesMeet_iff, exists_and_left]

/-- CONFLICT, byte by byte (R145). -/
theorem ringConflict_iff (s : State) (p : RingParams) :
    s.ringConflict p = true ↔
      (∃ (w : WindowNum) (z : Nat), (s.windows.get w).enabled = true ∧
          ((p.base ≤ z ∧ z < p.base + 32 * p.capacity) ∨ (p.headAddr ≤ z ∧ z < p.headAddr + 4) ∨
            (p.tailAddr ≤ z ∧ z < p.tailAddr + 4)) ∧
          (s.windows.get w).base.toNat ≤ z ∧ z < (s.windows.get w).base.toNat + (s.windows.get w).size.toNat) ∨
        (∃ (g : GroupNum) (m : Addr), (s.group g).state ≠ .off ∧ (s.group g).marker = some m ∧
          ((p.base ≤ m.toNat ∧ m.toNat < p.base + 32 * p.capacity) ∨ m.toNat = p.headAddr ∨ m.toNat = p.tailAddr)) := by
  have hmarkers : s.groups.toList.any p.holdsMarker = true ↔
      ∃ (g : GroupNum) (m : Addr), (s.group g).state ≠ .off ∧ (s.group g).marker = some m ∧
        ((p.base ≤ m.toNat ∧ m.toNat < p.base + 32 * p.capacity) ∨ m.toNat = p.headAddr ∨ m.toNat = p.tailAddr) := by
    simp only [Table8.any_toList_iff, RingParams.holdsMarker, Bool.and_eq_true, bne_iff_ne, Option.any_eq_true, Bool.or_eq_true,
      ringInArea_iff, beq_iff_eq, exists_and_left, or_assoc]
    rfl
  simp only [State.ringConflict, Bool.or_eq_true, hmarkers, windowMeets_iff, and_or_left, or_and_right, exists_or, or_assoc]
  rfl

/-- The refusals of RING SET with enable yes, in their order (R145). -/
theorem checkRingSet_enable {ps : List Byte} {p : RingParams} (h : RingParams.parse ps = { p with enable := some true }) (s : State) :
    checkRingSet ps s =
      if s.records.enabled = true then some .state
      else if p.badValues = true then some .param
      else if s.ringConflict p = true then some .conflict
      else none := by
  simp only [checkRingSet, h]
  rfl

/-! ## RING SET with enable no (O40) -/

theorem checkRingSet_disable (ps : List Byte) (s : State) : checkRingSet (0 :: ps) s = none := by
  simp [checkRingSet, RingParams.parse, yesNo]

theorem effectRingSet_disable (ps : List Byte) (s : State) : effectRingSet (0 :: ps) s = s.disableRing := by
  simp [effectRingSet, RingParams.parse, yesNo]

theorem checkRingSet_undefined {e : Byte} (he : 2 ≤ e.toNat) (ps : List Byte) (s : State) : checkRingSet (e :: ps) s = some .param := by
  have hparse : (RingParams.parse (e :: ps)).enable = none := by simpa [RingParams.parse, yesNo_eq_none_iff] using he
  simp only [checkRingSet, hparse]

/-- A disabled ring asks for nothing and gives no term of the IRQ condition: what follows is the line alone. -/
theorem settle_disabled {s a : State} (h : NothingDue s) (hengine : a.engine = s.engine) (hqueue : a.commitQueue = s.commitQueue)
    (hmode : a.mode = s.mode) (hgroups : a.groups = s.groups) (hrecords : a.records.enabled = false)
    (hbusy : a.arbiter.outstanding = s.arbiter.outstanding) (hwaiting : s.arbiter.waiting = [] → a.arbiter.waiting = []) :
    s.settle a = { a with irq := a.link.flags.tail || a.link.flags.stall || a.link.flags.ringerr } := by
  obtain ⟨htake, hflush, hreset, -, hgrant⟩ := h
  have hdue : NothingDue a := by
    refine ⟨?_, ?_, ?_, by simp [State.canBeginRecord, hrecords], fun hcan => hwaiting (hgrant ?_)⟩
    · simpa only [State.canTake, hengine, hqueue, hmode] using htake
    · simpa only [State.flushDone, hengine, hqueue, hmode, hgroups] using hflush
    · simpa only [State.softResetDone, hbusy, hmode] using hreset
    · simpa only [State.canGrant, hbusy, hmode] using hcan
  rw [State.settle_of_nothingDue _ _ hdue, State.refreshIrq, irqCondition, hrecords]
  rfl

/-- Settles O40. -/
theorem ringSetDisablesTheRing : Obligations.RingSetDisablesTheRing := by
  intro s ps hs hl hlen
  have hform : ∀ e : Byte, commandForm ringSetCommand.code = some (.write (e :: ps).length) := by
    intro e
    rw [List.length_cons, hlen]
    rfl
  refine ⟨?_, fun e he => ?_⟩
  · intro off irq
    have hexec : exec (.ringSet (.whole (0 :: ps))) s = .next (s.settle (s.framed .ok (s.writeSent 18)).disableRing) := by
      have h := frameHappening_write_accepted (c := ringSetCommand) (ps := 0 :: ps) hl (hform 0)
        (checkRingSet_disable ps (s.framed s.link.lastResult (s.writeSent (0 :: ps).length)))
      rw [List.length_cons, hlen] at h
      exact h.trans (congrArg (fun a => Host.Outcome.next (s.settle a)) (effectRingSet_disable ps _))
    rw [hexec]
    refine ⟨fun hw => ?_, fun task hw => ?_, fun task hw => ⟨task.isHead, ?_⟩⟩
    · have heffect : (s.framed .ok (s.writeSent 18)).disableRing = { s.framed .ok (s.writeSent 18) with records := off } := by
        unfold State.disableRing
        have hwriter : (s.framed .ok (s.writeSent 18)).records.disable.writer = none := hw
        simp only [hwriter]
        rfl
      rw [heffect]
      exact congrArg _ (settle_disabled hs.1 rfl rfl rfl rfl rfl rfl id)
    · have heffect : (s.framed .ok (s.writeSent 18)).disableRing = { s.framed .ok (s.writeSent 18) with
          records := { off with writer := none }, arbiter := { s.arbiter with recordPlace := none } } := by
        unfold State.disableRing
        have hwriter : (s.framed .ok (s.writeSent 18)).records.disable.writer = some (task, .requested) := hw
        simp only [hwriter]
        rfl
      rw [heffect]
      refine congrArg _ (settle_disabled hs.1 rfl rfl rfl rfl rfl rfl fun h => ?_)
      obtain ⟨hdrain, -, hinitiator⟩ := s.arbiter.waiting_eq_nil_iff.mp h
      exact (Arbiter.waiting_eq_nil_iff _).mpr ⟨hdrain, rfl, hinitiator⟩
    · have heffect : (s.framed .ok (s.writeSent 18)).disableRing = { s.framed .ok (s.writeSent 18) with
          records := { off with writer := some (.disowned task.isHead false, .outstanding) } } := by
        unfold State.disableRing
        have hwriter : (s.framed .ok (s.writeSent 18)).records.disable.writer = some (task, .outstanding) := hw
        simp only [hwriter]
        rfl
      rw [heffect]
      exact congrArg _ (settle_disabled hs.1 rfl rfl rfl rfl rfl rfl id)
  · have h := frameHappening_write_refused hs hl (hform e) (checkRingSet_undefined he ps _)
    rw [List.length_cons, hlen] at h
    rw [exec_ringSet, h]

/-! ## RING SET with enable yes (O39) -/

/-- Settles O39. -/
theorem ringSetEnablesTheRing : Obligations.RingSetEnablesTheRing := by
  intro s p hs hl hbase hhead htail hcapacity hthreshold inArea bad ringByte conflict outcome enabled
  have hparse := ringParams_parse p hbase hhead htail hcapacity hthreshold
  have hform : commandForm ringSetCommand.code = some (.write p.bytes.length) := by
    rw [ringBytes_length]
    rfl
  have hbad : p.badValues = true ↔ bad := ringBadValues_iff p
  have hconflict : s.ringConflict p = true ↔ conflict := ringConflict_iff s p
  have hcheck := checkRingSet_enable hparse (s.framed s.link.lastResult (s.writeSent p.bytes.length))
  have hrefused : ∀ r, checkRingSet p.bytes (s.framed s.link.lastResult (s.writeSent p.bytes.length)) = some r →
      outcome = .next (s.framed r (s.writeSent 18)) := by
    intro r hr
    have h := frameHappening_write_refused (c := ringSetCommand) hs hl hform hr
    rw [ringBytes_length] at h
    exact h
  have hready : s.records.enabled = false → ¬ bad → checkRingSet p.bytes (s.framed s.link.lastResult (s.writeSent p.bytes.length)) =
      if s.ringConflict p = true then some .conflict else none :=
    fun hoff hgood => hcheck.trans ((if_neg (ne_true_of_eq_false hoff)).trans (if_neg (fun h => hgood (hbad.mp h))))
  have haccepted : s.records.enabled = false → ¬ bad → ¬ conflict →
      outcome = .next (s.settle ((s.framed .ok (s.writeSent 18)).enableRing p)) := by
    intro hoff hgood hfree
    have heffect : effectRingSet p.bytes (s.framed .ok (s.writeSent 18)) = (s.framed .ok (s.writeSent 18)).enableRing p := by
      simp only [effectRingSet, hparse]
      rfl
    have h := frameHappening_write_accepted (c := ringSetCommand) hl hform
      ((hready hoff hgood).trans (if_neg (fun h => hfree (hconflict.mp h))))
    rw [ringBytes_length] at h
    exact h.trans (congrArg (fun a => Host.Outcome.next (s.settle a)) heffect)
  refine ⟨fun hon => hrefused _ (hcheck.trans (if_pos hon)),
    fun hoff hb => hrefused _ (hcheck.trans ((if_neg (ne_true_of_eq_false hoff)).trans (if_pos (hbad.mpr hb)))),
    fun hoff hgood hc => hrefused _ ((hready hoff hgood).trans (if_pos (hconflict.mpr hc))),
    fun hoff hgood hfree hw => ?_, fun isHead again st hw hoff hgood hfree => ?_⟩
  · have heffect : (s.framed .ok (s.writeSent 18)).enableRing p = { s.framed .ok (s.writeSent 18) with
        records := { enabled with writer := some (.initialHead, .requested) }
        arbiter := { s.arbiter with
          recordPlace := some { addr := BitVec.ofNat 32 p.headAddr, dir := .write, lanes := 0xF#4, data := 0 } } } := by
      have hwriter : ((s.framed .ok (s.writeSent 18)).records.enable p).writer = none := hw
      unfold State.enableRing
      simp only [hwriter]
      rfl
    have hfollows := State.follows_settle (a := (s.framed .ok (s.writeSent 18)).enableRing p) s
      (by rw [heffect]; exact hs.1.1) (by rw [heffect]; exact hs.1.2.1) (by rw [heffect]; exact hs.1.2.2.1)
    rw [heffect] at hfollows
    obtain ⟨st, hst⟩ := hfollows.writer _ _ rfl
    refine ⟨_, st, (haccepted hoff hgood hfree).trans (by rw [heffect]), ?_, hfollows.record (fun h => nomatch h) _ (.inl rfl),
      hfollows.link, hfollows.groups, hfollows.windows⟩
    rw [hfollows.records, hst]
  · have heffect : (s.framed .ok (s.writeSent 18)).enableRing p = { s.framed .ok (s.writeSent 18) with
        records := { enabled with writer := some (.disowned isHead true, st) } } := by
      have hwriter : ((s.framed .ok (s.writeSent 18)).records.enable p).writer = some (.disowned isHead again, st) := hw
      unfold State.enableRing
      simp only [hwriter]
      rfl
    refine ⟨_, haccepted hoff hgood hfree, ?_⟩
    rw [heffect, State.settle_of_nothingDue]
    · exact ⟨rfl, rfl, rfl, rfl, rfl⟩
    · obtain ⟨htake, hflush, hreset, -, hgrant⟩ := hs.1
      exact ⟨htake, hflush, hreset, rfl, hgrant⟩

end Sys2Proof.Machine
end

section
/-! PROOF. Memory's answers to the drain engine with ERROR (O55) and to the ring writer (O56, O57). -/

namespace Sys2Proof.Machine

namespace State
variable {s a : State}

/-- What follows at once where the engine, the queue, the mode and the groups stand: no take and no completion. -/
theorem follows_of_kept (hs : NothingDue s) (hmode : s.mode ≠ .resetting) (he : a.engine = s.engine) (hq : a.commitQueue = s.commitQueue)
    (hm : a.mode = s.mode) (hg : a.groups = s.groups) : a.Follows (s.settle a) := by
  obtain ⟨htake, hflush, -⟩ := hs
  refine follows_settle s ?_ ?_ (by simp [softResetDone, hm, hmode])
  · simpa only [canTake, he, hq, hm] using htake
  · simpa only [flushDone, he, hq, hm, hg] using hflush

/-- After what follows at once IRQ is asserted where a flag asserts it (R159). -/
theorem irq_settle_of_flag (before : State)
    (h : ((before.settle a).link.flags.tail || (before.settle a).link.flags.stall || (before.settle a).link.flags.ringerr) = true) :
    (before.settle a).irq = true := by
  rw [(settled_settle (s := a) before).2, irqCondition, h, Bool.or_true]

theorem flushDone_of_stalled {g : GroupNum} (h : (a.group g).state = .stalled) : a.flushDone = false := by
  by_contra hcon
  obtain ⟨-, hflushed, -⟩ := flushDone_parts ((Bool.not_eq_false _).mp hcon)
  rcases (flushed_iff _).mp (hflushed g) with ho | ⟨ho, -⟩ <;> rw [h] at ho <;> exact nomatch ho

/-! ## The drain step answered (R60, R63) -/

theorem drainResponse_of_not_owner (h : s.arbiter.owner ≠ some .drain) (ok : Bool) : s.drainResponse ok = s := by
  unfold drainResponse
  split
  · next q c hq _ => exact absurd (congrArg (Option.map Prod.fst) hq) h
  · rfl

theorem drainResponse_eq {c : DrainContext} {q : Request} (hq : s.arbiter.outstanding = some (.drain, q)) (hc : s.engine = some c)
    (ok : Bool) : s.drainResponse ok = s.endTransaction.stepResponse c q.addr ok := by
  simp only [drainResponse, hq, hc]

/-- A step answered outside RESETTING (R60, R63). -/
theorem drainResponse_outside {c : DrainContext} {q : Request} (hmode : s.mode ≠ .resetting)
    (hq : s.arbiter.outstanding = some (.drain, q)) (hc : s.engine = some c) (ok : Bool) :
    s.drainResponse ok =
      if ok = true then s.endTransaction.stepWritten c else s.endTransaction.stallGroup c.group c.step q.addr :=
  (drainResponse_eq hq hc ok).trans (if_neg hmode)

/-! ## The ring writer's words answered (R150 to R152) -/

theorem recordResponse_of_not_owner (h : s.arbiter.owner ≠ some .record) (ok : Bool) : s.recordResponse ok = s := by
  unfold recordResponse
  split
  · next ho _ => exact absurd ho h
  · next ho _ => exact absurd ho h
  · rfl

theorem headWordAnswered_of_not_owner (h : s.arbiter.owner ≠ some .record) (ok : Bool) : s.headWordAnswered ok = s := by
  unfold headWordAnswered
  split
  · next ho _ => exact absurd ho h
  · next ho _ => exact absurd ho h
  · next ho _ => exact absurd ho h
  · rfl

theorem recordResponse_word (ho : s.arbiter.owner = some .record) {k slot : Nat} {seq : BitVec 32} {st : Status}
    (hw : s.records.writer = some (.record k slot seq, st)) (ok : Bool) :
    s.recordResponse ok = s.endTransaction.recordWordResponse k slot seq ok := by
  simp only [recordResponse, ho, hw]

theorem recordResponse_disowned (ho : s.arbiter.owner = some .record) {again : Bool} {st : Status}
    (hw : s.records.writer = some (.disowned false again, st)) (ok : Bool) :
    s.recordResponse ok = s.endTransaction.disownedResponse again := by
  simp only [recordResponse, ho, hw]

theorem headWordAnswered_head (ho : s.arbiter.owner = some .record) {p gen slot : Nat} {urgent : Bool} {st : Status}
    (hw : s.records.writer = some (.head p gen slot urgent, st)) (ok : Bool) :
    s.headWordAnswered ok = s.endTransaction.headResponse slot urgent ok := by
  simp only [headWordAnswered, ho, hw]

theorem headWordAnswered_initial (ho : s.arbiter.owner = some .record) {st : Status} (hw : s.records.writer = some (.initialHead, st))
    (ok : Bool) : s.headWordAnswered ok = s.endTransaction.initialHeadResponse ok := by
  simp only [headWordAnswered, ho, hw]

theorem headWordAnswered_disowned (ho : s.arbiter.owner = some .record) {again : Bool} {st : Status}
    (hw : s.records.writer = some (.disowned true again, st)) (ok : Bool) :
    s.headWordAnswered ok = s.endTransaction.disownedResponse again := by
  simp only [headWordAnswered, ho, hw]

/-- The writer asks for a word of the record at the head of the queue (R150). -/
theorem requestRecordWord_of_queue {q : QueuedRecord} {rest : List QueuedRecord} (h : s.records.queue = q :: rest) (k slot : Nat)
    (seq : BitVec 32) :
    s.requestRecordWord k slot seq = { s with
      records := { s.records with writer := some (.record k slot seq, .requested) }
      arbiter := { s.arbiter with
        recordPlace := some ⟨BitVec.ofNat 32 (s.records.base.toNat + 32 * slot + 4 * k), .write, 0xF#4, recordWord q seq k⟩ } } := by
  obtain ⟨hnil, -⟩ | ⟨q', rest', hcons, heq⟩ := s.requestRecordWord_cases k slot seq
  · exact nomatch h.symm.trans hnil
  · obtain ⟨rfl, -⟩ := List.cons.inj (h.symm.trans hcons)
    exact heq

/-- The record unit after a completed record: P, the generation and the record sequence, and the loss that waits (R143, R150). -/
theorem leaveHead_advance {q : QueuedRecord} {rest : List QueuedRecord} {r : RecordUnit} (h : r.queue = q :: rest)
    (hroom : rest.length < 16) (now : Time) :
    r.advance.leaveHead now = { r with
      producer := (r.producer + 1) % r.capacity
      generation := if r.producer + 1 = r.capacity then (r.generation + 1) % 65536 else r.generation
      sequence := r.sequence + 1, lostCount := 0
      queue :=
        if r.lostCount = 0 then rest else rest ++ [⟨.lost now r.lostCount, r.urgencyMask.getLsbD 7⟩] } := by
  have htail : r.advance.queue.tail = rest := by rw [RecordUnit.advance, h]; rfl
  rw [RecordUnit.leaveHead, RecordUnit.appendLost_eq, htail]
  by_cases hl : r.lostCount = 0
  · rw [if_neg (fun hc => absurd hc.2 (Nat.not_lt.mpr (Nat.le_of_eq hl))), if_pos hl, RecordUnit.advance, hl]
  · rw [if_pos ⟨hroom, Nat.pos_of_ne_zero hl⟩, if_neg hl]
    rfl

end State

/-- Settles O55. -/
theorem drainErrorStallsTheGroup : Obligations.DrainErrorStallsTheGroup := by
  intro s hs hrun
  refine ⟨fun ok howner => ?_, fun c q hmode hc hq hqueue => ?_⟩
  · rw [exec_drainStepResponse hrun, State.drainResponse_of_not_owner howner, State.settle_of_settled _ _ hs]
  have heq : s.drainResponse false = s.endTransaction.stallGroup c.group c.step q.addr := State.drainResponse_outside hmode hq hc false
  have hself : (s.drainResponse false).group c.group =
      { s.group c.group with state := .stalled, faultStep := some c.step, faultAddr := q.addr } := by
    rw [heq, State.stallGroup_eq]
    exact State.group_setGroup_self s c.group _
  have hfollows : (s.drainResponse false).Follows (s.settle (s.drainResponse false)) := by
    refine State.follows_settle s ?_ (State.flushDone_of_stalled (congrArg Group.state hself)) ?_
    · exact (State.canTake_eq_false_iff _).mpr (.inr (.inl (by rw [heq, State.stallGroup_eq]; exact hqueue)))
    · rw [heq, State.stallGroup_eq]
      simp [State.softResetDone, State.endTransaction, hmode]
  have hlink : (s.settle (s.drainResponse false)).link =
      { s.link with flags := { s.link.flags with stall := true }, changeCount := s.link.changeCount + 1 } := by
    rw [hfollows.link, heq, State.stallGroup_eq]
    rfl
  obtain ⟨hlist, hlost⟩ := hfollows.reports (Reports.single (s := s) (b := .fault c.group s.time c.step q.addr)
    (by rw [heq, State.stallGroup_eq]; rfl))
  refine ⟨_, exec_drainStepResponse hrun false, hfollows.idle (by rw [heq, State.stallGroup_eq]), (hfollows.group _).trans hself,
    fun h hne => (hfollows.group _).trans ?_, hlink, State.irq_settle_of_flag _ (by rw [hlink]; simp), hlist, hlost⟩
  rw [heq, State.stallGroup_eq]
  exact State.group_setGroup_ne s _ hne

theorem exec_recordBegin {s : State} (hrun : s.run = .running) : exec .recordBegin s = .next (s.settle s.settleWriter) :=
  happening_of_running hrun State.settleWriter

/-- Settles O56. -/
theorem recordWordsAreWrittenInTurn : Obligations.RecordWordsAreWrittenInTurn := by
  refine ⟨fun s hrun => ⟨fun hs => ?_, fun q rest hmode htake hflush hbusy hirq hidle hon hqueue hfree => ?_⟩,
    fun s q rest k slot seq st hs hrun hmode ho hw hqueue => ⟨fun hk => ?_, fun hk hroom => ?_⟩⟩
  · rw [exec_recordBegin hrun, State.settleWriter_of_not_begin _ hs.1.2.2.2.1, State.settle_of_settled _ _ hs]
  · have hbegin : s.canBeginRecord = true := by simp [State.canBeginRecord, hidle, hon, hqueue, hfree, hmode]
    obtain ⟨p, hp⟩ := Option.ne_none_iff_exists'.mp hbusy
    have heq : s.settleWriter = { s with
        records := { s.records with writer := some (.record 0 s.records.producer s.records.sequence, .requested) }
        arbiter := { s.arbiter with
          recordPlace := some ⟨BitVec.ofNat 32 (s.records.base.toNat + 32 * s.records.producer), .write, 0xF#4,
            recordWord q s.records.sequence 0⟩ } } := by
      rw [State.settleWriter, if_pos hbegin, State.beginRecord, State.requestRecordWord_of_queue hqueue]
      rfl
    rw [exec_recordBegin hrun, heq]
    refine congrArg _ (State.settle_of_settled _ _ ⟨⟨htake, hflush, ?_, ?_, ?_⟩, hirq⟩)
    · simp [State.softResetDone, hp]
    · simp [State.canBeginRecord]
    · simp [State.canGrant, hp]
  · have hfollows := State.follows_of_kept (a := s.recordResponse true) hs.1 hmode
    have heq : s.recordResponse true = { s with
        records := { s.records with writer := some (.record (k + 1) slot seq, .requested) }
        arbiter := { s.arbiter with
          outstanding := none
          recordPlace := some ⟨BitVec.ofNat 32 (s.records.base.toNat + 32 * slot + 4 * (k + 1)), .write, 0xF#4,
            recordWord q seq (k + 1)⟩ } } := by
      rw [State.recordResponse_word ho hw]
      exact (if_pos hk).trans (State.requestRecordWord_of_queue (s := s.endTransaction) hqueue _ _ _)
    rw [heq] at hfollows
    have hfollows := hfollows rfl rfl rfl rfl
    obtain ⟨st', hst⟩ := hfollows.writer _ _ rfl
    refine ⟨_, st', (exec_recordWordResponse hrun true).trans (by rw [heq]), ?_, hfollows.record (fun h => nomatch h) _ (.inl rfl)⟩
    rw [hfollows.records, hst]
  · have hfollows := State.follows_of_kept (a := s.recordResponse true) hs.1 hmode
    have hhead : ((s.records.queue.head?.map (·.urgent)).getD false) = q.urgent := by rw [hqueue]; rfl
    have hcomplete : s.recordResponse true = s.endTransaction.completeRecord slot := by
      rw [State.recordResponse_word ho hw]
      exact if_neg (Nat.not_lt.mpr hk)
    have heq : s.recordResponse true = { s with
        records := { s.records.advance.leaveHead s.time with
          writer := some (.head (s.records.advance.leaveHead s.time).producer (s.records.advance.leaveHead s.time).generation slot
            q.urgent, .requested) }
        arbiter := { s.arbiter with
          outstanding := none
          recordPlace := some (deviceWrite (s.records.advance.leaveHead s.time).headAddr
            (headWord (s.records.advance.leaveHead s.time).producer (s.records.advance.leaveHead s.time).generation)) } } := by
      rw [hcomplete, ← hhead]
      rfl
    rw [State.leaveHead_advance hqueue hroom] at heq
    rw [heq] at hfollows
    have hfollows := hfollows rfl rfl rfl rfl
    obtain ⟨st', hst⟩ := hfollows.writer _ _ rfl
    refine ⟨_, st', (exec_recordWordResponse hrun true).trans (by rw [heq]), ?_⟩
    intro p gen
    refine ⟨?_, hfollows.record (fun h => nomatch h) _ (.inl rfl)⟩
    rw [hfollows.records, hst]

/-- A record word answered ERROR outside RESETTING: the record leaves the queue, and the loss is reported at its tail (R152). -/
theorem abandonRecord_eq {s : State} (hmode : s.mode ≠ .resetting) {q : QueuedRecord} {rest : List QueuedRecord}
    (hqueue : s.records.queue = q :: rest) (hlen : s.records.queue.length ≤ 16) :
    s.abandonRecord = { s with
      link := s.link.raise .ringerr
      records := { s.records with
        lostCount := 0, writer := none
        queue := rest ++ [{
          urgent := s.records.urgencyMask.getLsbD 7
          body := .lost s.time (satAdd s.records.lostCount q.body.lossOf) }] } } := by
  have hroom : rest.length < 16 := by
    rw [hqueue, List.length_cons] at hlen
    omega
  have hloss : 0 < satAdd s.records.lostCount q.body.lossOf := by
    have h1 : 1 ≤ q.body.lossOf := by cases q.body <;> simp [RecordBody.lossOf]
    rw [satAdd]
    exact lt_min (by omega) (by decide)
  have hhead : ((s.records.queue.head?.map (·.body.lossOf)).getD 1) = q.body.lossOf := by rw [hqueue]; rfl
  have htail : s.records.queue.tail = rest := by rw [hqueue]; rfl
  unfold State.abandonRecord
  rw [hhead, if_neg hmode, htail]
  dsimp only
  rw [RecordUnit.appendLost_eq, if_pos ⟨hroom, hloss⟩]
  rfl

theorem headError_outside {s : State} (hmode : s.mode ≠ .resetting) (ok : Bool) :
    s.headError ok = if ok = true then s else s.raise .ringerr := by
  simp [State.headError, hmode]

/-- Outside RESETTING a head word's answer sets RINGERR where it is an ERROR, and leaves the record unit `r` (R151). -/
theorem headAnswer_eq {s : State} (hmode : s.mode ≠ .resetting) (ok : Bool) (r : RecordUnit) :
    (s.endTransaction.headError ok).setRecords r = { s with
      arbiter := { s.arbiter with outstanding := none }, records := r
      link := if ok then s.link
        else { s.link with flags := { s.link.flags with ringerr := true }, changeCount := s.link.changeCount + 1 } } := by
  rw [headError_outside (by exact hmode)]
  cases ok <;> rfl

theorem markUrgent_eq (r : RecordUnit) (slot : Nat) (urgent : Bool) :
    r.markUrgent slot urgent = { r with
      urgentMark :=
        if urgent = true ∧ (slot + r.capacity - r.consumer % r.capacity) % r.capacity < r.unconsumed then some slot
        else r.urgentMark } := by
  have hslot : (urgent && r.slotUnconsumed slot) = true ↔
      urgent = true ∧ (slot + r.capacity - r.consumer % r.capacity) % r.capacity < r.unconsumed := by
    rw [Bool.and_eq_true, RecordUnit.slotUnconsumed, decide_eq_true_eq]
    rfl
  rw [RecordUnit.markUrgent]
  simp only [hslot]
  split <;> rfl

/-- Settles O57. -/
theorem ringErrorsAndHeadWords : Obligations.RingErrorsAndHeadWords := by
  refine ⟨fun s hs hrun => ⟨fun ok ho => ?_, fun q rest k slot seq st hmode ho hw hqueue hlen => ?_⟩, fun s ok hs hrun =>
    ⟨fun ho => ?_, fun p gen slot urgent st hmode ho hw => ?_, fun st hw hmode ho => ?_, fun isHead again st hw hmode ho => ?_⟩⟩
  · rw [exec_recordWordResponse hrun, State.recordResponse_of_not_owner ho, State.settle_of_settled _ _ hs]
  · have hfollows := State.follows_of_kept (a := s.recordResponse false) hs.1 hmode
    have heq := (State.recordResponse_word ho hw false).trans (abandonRecord_eq (s := s.endTransaction) hmode hqueue hlen)
    rw [heq] at hfollows
    have hfollows := hfollows rfl rfl rfl rfl
    refine ⟨_, (exec_recordWordResponse hrun false).trans (by rw [heq]), ?_, ?_, ?_, hfollows.link, ?_, ?_, ?_⟩
    · rw [hfollows.records]; rfl
    · rw [hfollows.records]; rfl
    · rw [hfollows.records]; rfl
    · refine State.irq_settle_of_flag _ ?_
      rw [hfollows.link]
      simp [Link.raise, StatusFlags.raise]
    · rw [hfollows.records]
    · rw [hfollows.records]
      dsimp only
      rw [satAdd, min_comm]
      cases q.body <;> rfl
  · rw [exec_headWordResponse hrun, State.headWordAnswered_of_not_owner ho, State.settle_of_settled _ _ hs]
  · have hfollows := State.follows_of_kept (a := s.headWordAnswered ok) hs.1 hmode
    have heq : s.headWordAnswered ok = ((s.endTransaction.headError ok).setRecords (s.records.markUrgent slot urgent)).writerIdle :=
      State.headWordAnswered_head ho hw ok
    rw [headAnswer_eq hmode, markUrgent_eq] at heq
    rw [heq] at hfollows
    have hfollows := hfollows rfl rfl rfl rfl
    refine ⟨_, (exec_headWordResponse hrun ok).trans (by rw [heq]), ?_, ?_, ?_, ?_, ?_, hfollows.link⟩
    all_goals rw [hfollows.records]; rfl
  · have hfollows := State.follows_of_kept (a := s.headWordAnswered ok) hs.1 hmode
    have heq : s.headWordAnswered ok = (s.endTransaction.headError ok).setRecords { s.records with writer := none } := by
      rw [State.headWordAnswered_initial ho hw ok, State.initialHeadResponse, headError_outside (by exact hmode)]
      cases ok <;> rfl
    rw [headAnswer_eq hmode] at heq
    rw [heq] at hfollows
    have hfollows := hfollows rfl rfl rfl rfl
    refine ⟨_, (exec_headWordResponse hrun ok).trans (by rw [heq]), hfollows.records, fun hempty => ?_, hfollows.link⟩
    exact hfollows.writerIdle rfl (by simp [State.canBeginRecord, hempty])
  · have hexec : ∃ a, (if isHead = true then exec (.headWordResponse ok) s else exec (.recordWordResponse ok) s) = .next (s.settle a) ∧
        a = s.endTransaction.disownedResponse again := by
      cases isHead with
      | true => exact ⟨_, exec_headWordResponse hrun ok, State.headWordAnswered_disowned ho hw ok⟩
      | false => exact ⟨_, exec_recordWordResponse hrun ok, State.recordResponse_disowned ho hw ok⟩
    obtain ⟨a, hexec, ha⟩ := hexec
    have hfollows := State.follows_of_kept (a := a) hs.1 hmode
    cases again with
    | false =>
      have heq : a = s.endTransaction.writerIdle := ha
      rw [heq] at hfollows
      have hfollows := hfollows rfl rfl rfl rfl
      refine ⟨_, hexec.trans (by rw [heq]), hfollows.link, hfollows.groups, fun _ hoff => ?_, fun h => nomatch h⟩
      rw [hfollows.records, hfollows.writerIdle rfl (by simp [State.canBeginRecord, State.writerIdle, State.setRecords, State.endTransaction, hoff])]
      rfl
    | true =>
      have heq : a = s.endTransaction.requestInitialHead := ha.trans (if_pos (by simp [State.endTransaction, hmode]))
      rw [heq] at hfollows
      have hfollows := hfollows rfl rfl rfl rfl
      obtain ⟨st', hst⟩ := hfollows.writer _ _ rfl
      refine ⟨_, hexec.trans (by rw [heq]), hfollows.link, hfollows.groups, (fun h => nomatch h), fun _ => ⟨st', ?_, ?_⟩⟩
      · rw [hfollows.records, hst]
        rfl
      · exact hfollows.record (fun h => nomatch h) _ (.inl rfl)

end Sys2Proof.Machine
end

section
/-! PROOF. The order of the grants (O51). -/

namespace Sys2Proof.Machine

theorem waiting_of_drain {b : Arbiter} {q : Request} (h : b.drainPlace = some q) : ∃ rest, b.waiting = .drain :: rest := by
  simp [Arbiter.waiting, grantOrder, Arbiter.place, h]

theorem waiting_of_record {b : Arbiter} {q : Request} (hd : b.drainPlace = none) (h : b.recordPlace = some q) :
    ∃ rest, b.waiting = .record :: rest := by
  simp [Arbiter.waiting, grantOrder, Arbiter.place, hd, h]

theorem waiting_of_initiator {b : Arbiter} {q : Request} (hd : b.drainPlace = none) (hr : b.recordPlace = none)
    (h : b.initiatorPlace = some q) : b.waiting = [.initiator] := by
  simp [Arbiter.waiting, grantOrder, Arbiter.place, hd, hr, h]

namespace State
variable {s a v w : State}

/-! ## The grant by the waiting requests (R121, R122) -/

/-- At a response the highest waiting request is granted, where it stood in its place before or is the answer's owner's (R122). -/
theorem arbitrate_of_head (hbusy : s.arbiter.outstanding.isSome = true) (hgrant : w.canGrant = true) {o : Owner} {rest : List Owner}
    (hwait : w.arbiter.waiting = o :: rest) (hplace : (s.arbiter.place o).isSome = true ∨ s.arbiter.owner = some o) :
    s.arbitrate w = w.grantTo o := by
  have hin : s.inPlace w = o :: rest.filter (fun p => (s.arbiter.place p).isSome || s.arbiter.owner == some p) := by
    rw [inPlace, hwait, List.filter_cons_of_pos]
    simpa using hplace
  rw [arbitrate, if_pos hgrant, if_pos (by simp [hbusy])]
  simp only [grantAtResponse, hin, hwait, if_true]

theorem grantTo_outstanding {o : Owner} {q : Request} (h : w.arbiter.place o = some q) :
    (w.grantTo o).arbiter.outstanding = some (o, q) := by
  cases o <;> simp [grantTo, Arbiter.grant, h, setArbiter]

theorem grantTo_watch_of_ne {o : Owner} (ho : o ≠ .initiator) (hi : w.arbiter.initiatorPlace ≠ none) :
    (w.grantTo o).watch = w.watch.map (fun c => { c with grantsAhead := min (c.grantsAhead + 1) 65535 }) := by
  have hn : w.arbiter.initiatorPlace.isNone ≠ true := by simpa using hi
  cases o with
  | initiator => exact absurd rfl ho
  | drain => simp only [grantTo, countGrantAhead, if_neg (not_or.mpr ⟨ho, hn⟩)]; rfl
  | record => simp only [grantTo, countGrantAhead, if_neg (not_or.mpr ⟨ho, hn⟩)]; rfl

theorem grantTo_watch_initiator : (w.grantTo .initiator).watch = w.watch := rfl

theorem grantTo_engine_none (o : Owner) : (w.grantTo o).engine = none ↔ w.engine = none := by
  cases o <;> simp [grantTo, markOutstanding, countGrantAhead, setArbiter, setEngine, setRecords] <;> split <;> simp

theorem grantTo_writer_none (o : Owner) : (w.grantTo o).records.writer = none ↔ w.records.writer = none := by
  cases o <;> simp [grantTo, markOutstanding, countGrantAhead, setArbiter, setEngine, setRecords] <;> split <;> simp

/-! ## The drain engine's part of a happening -/

/-- What the drain engine, the group table and the flush leave alone: the watch context, the ring writer and its place, and a
transaction that passes. -/
structure Aside (s a : State) : Prop where
  watch : a.watch = s.watch
  writer : a.records.writer = s.records.writer
  record : a.arbiter.recordPlace = s.arbiter.recordPlace
  outstanding : a.arbiter.outstanding = s.arbiter.outstanding
  outside : s.mode ≠ .resetting → a.mode ≠ .resetting
  passing : s.port.isPassing = true → a.port.isPassing = true ∧ a.arbiter.initiatorPlace = s.arbiter.initiatorPlace

/-- The engine is BUSY exactly while its request stands in its place: it has none outstanding. -/
def EngineAsks (a : State) : Prop := a.engine = none ↔ a.arbiter.drainPlace = none

theorem Aside.refl (s : State) : Aside s s := ⟨rfl, rfl, rfl, rfl, id, fun h => ⟨h, rfl⟩⟩

theorem Aside.trans (h : Aside s a) (k : Aside a v) : Aside s v :=
  ⟨k.watch.trans h.watch, k.writer.trans h.writer, k.record.trans h.record, k.outstanding.trans h.outstanding,
    fun hm => k.outside (h.outside hm), fun hp => ⟨(k.passing (h.passing hp).1).1, (k.passing (h.passing hp).1).2.trans (h.passing hp).2⟩⟩

theorem aside_groupTable (h : GroupTableOnly s a) : Aside s a := by
  obtain ⟨_, _, _, _, rfl⟩ := h
  exact ⟨rfl, rfl, rfl, rfl, id, fun hp => ⟨hp, rfl⟩⟩

theorem engineAsks_groupTable (h : GroupTableOnly s a) (hs : s.EngineAsks) : a.EngineAsks := by
  obtain ⟨_, _, _, _, rfl⟩ := h
  exact hs

theorem aside_requestStep (g : GroupNum) (kind : DrainKind) (step : Step) : Aside s (s.requestStep g kind step) :=
  ⟨rfl, rfl, rfl, rfl, id, fun hp => ⟨hp, rfl⟩⟩

theorem engineAsks_requestStep (g : GroupNum) (kind : DrainKind) (step : Step) : (s.requestStep g kind step).EngineAsks := by
  simp [EngineAsks, requestStep_eq]

theorem handOver_writer (r : RecordUnit) (b : RecordBody) : (r.handOver b).writer = r.writer := by rw [RecordUnit.handOver_eq]

theorem aside_finishEpoch (g : GroupNum) : Aside s (s.finishEpoch g) := by
  rw [finishEpoch_eq]
  refine ⟨rfl, ?_, rfl, rfl, id, fun hp => ⟨hp, rfl⟩⟩
  dsimp only
  split
  · exact handOver_writer _ _
  · rfl

theorem engineAsks_of_idle (he : a.engine = none) (hp : a.arbiter.drainPlace = none) : a.EngineAsks := by simp [EngineAsks, he, hp]

theorem engineAsks_finishEpoch (h : s.arbiter.drainPlace = none) (g : GroupNum) : (s.finishEpoch g).EngineAsks := by
  rw [finishEpoch_eq]
  exact engineAsks_of_idle rfl h

/-- The takes leave the engine with a request in its place, or IDLE without one (R58, R59). -/
theorem takeChain_drains (late : Option (GroupNum × RecordBody)) (n : Nat) : ∀ (s : State) (done : List GroupNum),
    Aside s (s.takeChain late done n) ∧ (s.EngineAsks → (s.takeChain late done n).EngineAsks) := by
  have hturn : ∀ (a : State) (done : List GroupNum),
      Aside a (a.groupTurn late done) ∧ (a.EngineAsks → (a.groupTurn late done).EngineAsks) := fun a done =>
    ⟨aside_groupTable (a.groupTableOnly_groupTurn late done), engineAsks_groupTable (a.groupTableOnly_groupTurn late done)⟩
  induction n with
  | zero => exact hturn
  | succ n ih =>
    intro s done
    obtain ⟨-, heq⟩ | ⟨g, rest, hcan, -, ⟨kind, step, -, heq⟩ | ⟨-, heq⟩⟩ := s.takeChain_succ_cases late done n <;> rw [heq]
    · exact hturn s done
    · have htaken : Aside s (s.taken g rest) := ⟨rfl, rfl, rfl, rfl, id, fun hp => ⟨hp, rfl⟩⟩
      obtain ⟨h1, h2⟩ := hturn ((s.taken g rest).requestStep g kind step) done
      exact ⟨htaken.trans ((aside_requestStep g kind step).trans h1), fun _ => h2 (engineAsks_requestStep g kind step)⟩
    · have htaken : Aside s (s.taken g rest) := ⟨rfl, rfl, rfl, rfl, id, fun hp => ⟨hp, rfl⟩⟩
      obtain ⟨h1, h2⟩ := ih ((s.taken g rest).finishEpoch g) (g :: done)
      exact ⟨htaken.trans ((aside_finishEpoch g).trans h1), fun hs =>
        h2 (engineAsks_finishEpoch (s := s.taken g rest) (hs.mp (engine_of_canTake hcan)) g)⟩

theorem takeNext_drains : Aside s s.takeNext ∧ (s.EngineAsks → s.takeNext.EngineAsks) := by
  obtain ⟨h1, h2⟩ := takeChain_drains none s.commitQueue.length s []
  obtain ⟨h3, h4⟩ := takeChain_drains none (s.takeAll none []).commitQueue.length (s.takeAll none []) []
  exact ⟨h1.trans h3, fun hs => h4 (h2 hs)⟩

theorem settleFlush_drains : Aside s s.settleFlush ∧ (s.EngineAsks → s.settleFlush.EngineAsks) := by
  unfold settleFlush
  split
  · rw [completeFlush]
    rcases (s.setMode .bypass).passHeld_cases with ⟨-, heq⟩ | ⟨t, q, hp, heq⟩ <;> rw [heq]
    · exact ⟨⟨rfl, rfl, rfl, rfl, fun _ => by simp, fun hp => ⟨hp, rfl⟩⟩, id⟩
    · exact ⟨⟨rfl, rfl, rfl, rfl, fun _ => by simp, fun h => nomatch h.symm.trans hp⟩, id⟩
  · exact ⟨Aside.refl s, id⟩

theorem recordsAfterPlacement_writer (s : State) (g : GroupNum) (t : Transaction) :
    (s.recordsAfterPlacement g t).writer = s.records.writer := by
  unfold recordsAfterPlacement
  split
  · exact handOver_writer _ _
  · rfl

theorem aside_reconsiderHeld (s : State) : Aside s s.reconsiderHeld := by
  obtain ⟨-, heq⟩ | ⟨tk, g, k, hport, -, -, -, heq⟩ := s.reconsiderHeld_cases <;> rw [heq]
  · exact Aside.refl s
  · rw [placeNew_eq]
    refine ⟨rfl, ?_, rfl, rfl, id, fun hp => ?_⟩
    · exact s.recordsAfterPlacement_writer g tk.tx
    · rw [hport] at hp
      exact nomatch hp

theorem aside_releaseInTurn (s : State) (done : List GroupNum) : Aside s (s.releaseInTurn done).1 := by
  obtain heq | ⟨_, _, _, -, -, -, -, heq⟩ := s.releaseInTurn_cases done <;> rw [heq]
  · exact aside_reconsiderHeld s
  · exact { aside_reconsiderHeld s with writer := rfl }

theorem completeEpoch_drains (late : Option (GroupNum × RecordBody)) (g : GroupNum) :
    Aside s (s.completeEpoch late g) ∧ (s.arbiter.drainPlace = none → (s.completeEpoch late g).EngineAsks) := by
  obtain ⟨h1, h2⟩ := takeChain_drains late (s.finishEpoch g).commitQueue.length (s.finishEpoch g) [g]
  exact ⟨(aside_finishEpoch g).trans h1, fun h => h2 (engineAsks_finishEpoch h g)⟩

theorem completeAbandon_drains (g : GroupNum) :
    Aside s (s.completeAbandon g) ∧ (s.arbiter.drainPlace = none → (s.completeAbandon g).EngineAsks) := by
  have hfinish : Aside s (s.finishAbandon g) := ⟨rfl, rfl, rfl, rfl, id, fun hp => ⟨hp, rfl⟩⟩
  obtain ⟨h1, h2⟩ := takeChain_drains none (s.finishAbandon g).commitQueue.length (s.finishAbandon g) [g]
  exact ⟨hfinish.trans h1, fun h => h2 (engineAsks_of_idle rfl h)⟩

theorem afterEntry_drains (g : GroupNum) :
    Aside s (s.afterEntry g) ∧ (s.arbiter.drainPlace = none → (s.afterEntry g).EngineAsks) := by
  unfold afterEntry
  split
  · exact ⟨(aside_reconsiderHeld s).trans (aside_requestStep _ _ _), fun _ => engineAsks_requestStep _ _ _⟩
  · split
    · exact ⟨(aside_reconsiderHeld s).trans (aside_requestStep _ _ _), fun _ => engineAsks_requestStep _ _ _⟩
    · obtain ⟨-, -, -, harb⟩ := s.releaseInTurn_fields (g :: s.completing)
      obtain ⟨h1, h2⟩ := completeEpoch_drains (s := (s.releaseInTurn (g :: s.completing)).1) (s.releaseInTurn (g :: s.completing)).2 g
      exact ⟨(aside_releaseInTurn s _).trans h1, fun h => h2 (by rw [harb]; exact h)⟩

/-- After a step answered OK the engine asks for its next step, or is IDLE without a request (R60). -/
theorem stepWritten_drains (c : DrainContext) :
    Aside s (s.stepWritten c) ∧ (s.arbiter.drainPlace = none → (s.stepWritten c).EngineAsks) := by
  obtain ⟨g, kind, step, st⟩ := c
  unfold stepWritten
  cases kind with
  | abandonEnd => exact completeAbandon_drains g
  | epoch =>
    cases step with
    | start =>
      dsimp only
      split
      · exact ⟨aside_requestStep _ _ _, fun _ => engineAsks_requestStep _ _ _⟩
      · exact ⟨aside_requestStep _ _ _, fun _ => engineAsks_requestStep _ _ _⟩
    | entry =>
      have hentry : Aside s (s.entryWritten g) := ⟨rfl, rfl, rfl, rfl, id, fun hp => ⟨hp, rfl⟩⟩
      obtain ⟨h1, h2⟩ := afterEntry_drains (s := s.entryWritten g) g
      exact ⟨hentry.trans h1, h2⟩
    | finish => exact completeEpoch_drains none g

theorem stallGroup_drains (g : GroupNum) (step : Step) (addr : Addr) :
    Aside s (s.stallGroup g step addr) ∧ (s.arbiter.drainPlace = none → (s.stallGroup g step addr).EngineAsks) := by
  rw [stallGroup_eq]
  exact ⟨⟨rfl, handOver_writer _ _, rfl, rfl, id, fun hp => ⟨hp, rfl⟩⟩, fun h => engineAsks_of_idle rfl h⟩

/-! ## The answers, up to the record begun and the grant -/

/-- What stands where the grant that follows memory's answer is made: the arbiter is IDLE outside RESETTING; `v` is the device
before a record is begun. -/
structure GrantPoint (s v : State) (c : Instr) : Prop where
  exec_eq : exec c s = .next (s.arbitrate v.settleWriter).refreshIrq
  idle : v.arbiter.outstanding = none
  mode : v.mode ≠ .resetting
  watch : s.arbiter.owner ≠ some .initiator → v.watch = s.watch
  initiator : s.arbiter.owner ≠ some .initiator → s.port.isPassing = true → v.arbiter.initiatorPlace = s.arbiter.initiatorPlace
  initiatorOwn : s.arbiter.owner = some .initiator → v.arbiter.initiatorPlace = s.arbiter.initiatorPlace
  drain : s.arbiter.owner ≠ some .drain → v.arbiter.drainPlace = s.arbiter.drainPlace
  drainOwn : s.arbiter.owner = some .drain → s.arbiter.drainPlace = none → v.EngineAsks
  writer : s.arbiter.owner ≠ some .record → v.records.writer = s.records.writer ∧ v.arbiter.recordPlace = s.arbiter.recordPlace
  writerOwn : s.arbiter.owner = some .record → s.arbiter.recordPlace = none →
    (v.records.writer = none ↔ v.arbiter.recordPlace = none)

theorem settle_outside (before : State) (hnext : a.takeNext.settleFlush.mode ≠ .resetting) :
    before.settle a = (before.arbitrate a.takeNext.settleFlush.settleWriter).refreshIrq := by
  rw [settle, settleSoftReset_of_not_done _ (by simp [softResetDone, hnext])]

/-- What the drain engine's answer leaves (R60, R63). -/
theorem grantPoint_drain (hrun : s.run = .running) (hmode : s.mode ≠ .resetting) (howner : s.arbiter.owner = some .drain)
    (hengine : s.engine ≠ none) (ok : Bool) :
    GrantPoint s (s.drainResponse ok).takeNext.settleFlush (.drainStepResponse ok) := by
  obtain ⟨c, hc⟩ := Option.ne_none_iff_exists'.mp hengine
  obtain ⟨⟨o, q⟩, hq, ho⟩ := Option.map_eq_some_iff.mp howner
  obtain rfl : o = .drain := ho
  have hanswer : Aside s.endTransaction (s.drainResponse ok) ∧ (s.arbiter.drainPlace = none → (s.drainResponse ok).EngineAsks) := by
    rw [drainResponse_outside hmode hq hc ok]
    split
    · exact stepWritten_drains c
    · exact stallGroup_drains _ _ _
  obtain ⟨h1, e1⟩ := hanswer
  obtain ⟨h2, e2⟩ := takeNext_drains (s := s.drainResponse ok)
  obtain ⟨h3, e3⟩ := settleFlush_drains (s := (s.drainResponse ok).takeNext)
  have h := h1.trans (h2.trans h3)
  have hwriter := h.writer
  have hout := h.outside hmode
  exact {
    exec_eq := (exec_drainStepResponse hrun ok).trans (congrArg _ (settle_outside s hout))
    idle := h.outstanding
    mode := hout
    watch := fun _ => h.watch
    initiator := fun _ hp => (h.passing hp).2
    initiatorOwn := fun hi => nomatch howner.symm.trans hi
    drain := fun hd => absurd howner hd
    drainOwn := fun _ hd => e3 (e2 (e1 hd))
    writer := fun _ => ⟨h.writer, h.record⟩
    writerOwn := fun hi => nomatch howner.symm.trans hi }

/-- Where the engine, the queue, the mode and the groups stand, no take and no completion comes before the record begun. -/
theorem settle_of_kept (hs : NothingDue s) (hmode : s.mode ≠ .resetting) (he : a.engine = s.engine) (hq : a.commitQueue = s.commitQueue)
    (hm : a.mode = s.mode) (hg : a.groups = s.groups) : s.settle a = (s.arbitrate a.settleWriter).refreshIrq := by
  obtain ⟨htake, hflush, -⟩ := hs
  rw [settle, takeNext_of_not_canTake a (by simpa only [canTake, he, hq, hm] using htake),
    settleFlush_of_not_done a (by simpa only [flushDone, he, hq, hm, hg] using hflush),
    settleSoftReset_of_not_done _ (by simp [softResetDone, hm, hmode])]

/-- What the answer to the ring writer leaves alone. -/
structure WriterOnly (s a : State) : Prop where
  engine : a.engine = s.engine
  queue : a.commitQueue = s.commitQueue
  mode : a.mode = s.mode
  groups : a.groups = s.groups
  watch : a.watch = s.watch
  idle : a.arbiter.outstanding = none
  drain : a.arbiter.drainPlace = s.arbiter.drainPlace
  initiator : a.arbiter.initiatorPlace = s.arbiter.initiatorPlace
  asks : s.arbiter.recordPlace = none → (a.records.writer = none ↔ a.arbiter.recordPlace = none)

theorem writerOnly_idle (s : State) : WriterOnly s s.endTransaction.writerIdle :=
  ⟨rfl, rfl, rfl, rfl, rfl, rfl, rfl, rfl, fun h => ⟨fun _ => h, fun _ => rfl⟩⟩

theorem writerOnly_request (s : State) (r : RecordUnit) (t : WriterTask) (q : Request) :
    WriterOnly s ((s.endTransaction.setRecords r).writerRequest t q) :=
  ⟨rfl, rfl, rfl, rfl, rfl, rfl, rfl, rfl, fun _ => ⟨(fun h => nomatch h), fun h => nomatch h⟩⟩

theorem WriterOnly.raise (h : WriterOnly s a) (f : Flag) : WriterOnly s (a.raise f) := { h with }

theorem writerOnly_requestRecordWord (s : State) (k slot : Nat) (seq : BitVec 32) :
    WriterOnly s (s.endTransaction.requestRecordWord k slot seq) := by
  obtain ⟨-, heq⟩ | ⟨q, rest, -, heq⟩ := s.endTransaction.requestRecordWord_cases k slot seq <;> rw [heq]
  · exact writerOnly_idle s
  · exact writerOnly_request s s.records _ _

theorem writerOnly_disowned (s : State) (again : Bool) : WriterOnly s (s.endTransaction.disownedResponse again) := by
  unfold disownedResponse
  split
  · exact writerOnly_request s s.records _ _
  · exact writerOnly_idle s

theorem writerOnly_setRecords (s : State) {r : RecordUnit} (hr : r.writer = none) : WriterOnly s (s.endTransaction.setRecords r) :=
  ⟨rfl, rfl, rfl, rfl, rfl, rfl, rfl, rfl, fun h => ⟨fun _ => h, fun _ => hr⟩⟩

theorem appendLost_writer (r : RecordUnit) (now : Time) : (r.appendLost now).writer = r.writer := by
  rw [RecordUnit.appendLost_eq]
  split <;> rfl

theorem writerOnly_abandonRecord (s : State) : WriterOnly s s.endTransaction.abandonRecord := by
  unfold abandonRecord
  dsimp only
  split
  · exact writerOnly_setRecords s rfl
  · exact (writerOnly_setRecords s (appendLost_writer _ _)).raise _

theorem writerOnly_recordWordResponse (s : State) (k slot : Nat) (seq : BitVec 32) (ok : Bool) :
    WriterOnly s (s.endTransaction.recordWordResponse k slot seq ok) := by
  unfold recordWordResponse
  split
  · exact writerOnly_abandonRecord s
  · split
    · exact writerOnly_requestRecordWord s _ _ _
    · exact writerOnly_request s _ _ _

theorem writerOnly_headError (s : State) (ok : Bool) {r : RecordUnit} (hr : r.writer = none) :
    WriterOnly s ((s.endTransaction.headError ok).setRecords r) := by
  unfold headError
  split
  · exact writerOnly_setRecords s hr
  · exact { writerOnly_setRecords s hr with }

/-- What the ring writer's answer leaves (R150 to R152). -/
theorem WriterOnly.grantPoint (h : WriterOnly s a) (hs : NothingDue s) (hmode : s.mode ≠ .resetting)
    (howner : s.arbiter.owner = some .record) {c : Instr} (hexec : exec c s = .next (s.settle a)) : GrantPoint s a c where
  exec_eq := hexec.trans (congrArg _ (settle_of_kept hs hmode h.engine h.queue h.mode h.groups))
  idle := h.idle
  mode := h.mode ▸ hmode
  watch := fun _ => h.watch
  initiator := fun _ _ => h.initiator
  initiatorOwn := fun _ => h.initiator
  drain := fun _ => h.drain
  drainOwn := fun hd => nomatch howner.symm.trans hd
  writer := fun hw => absurd howner hw
  writerOwn := fun _ => h.asks

theorem grantPoint_initiator (hs : NothingDue s) (hrun : s.run = .running) (hmode : s.mode ≠ .resetting)
    (howner : s.arbiter.owner = some .initiator) {tk : Taken} (hport : s.port = .passing tk) (ok : Bool) (data : Word) :
    GrantPoint s (s.initiatorAnswered tk ok data) (.initiatorResponse ok data) := by
  obtain ⟨r, w, hr, hw, heq⟩ := s.initiatorAnswered_eq tk ok data
  have hwriter : (s.initiatorAnswered tk ok data).records.writer = s.records.writer := by
    unfold initiatorAnswered
    dsimp only
    split
    · unfold closeWatch
      split
      · rfl
      · exact handOver_writer _ _
    · rfl
  refine {
    exec_eq := (exec_initiatorResponse hrun ok data).trans ?_
    idle := by rw [heq]
    mode := by rw [heq]; exact hmode
    watch := fun hi => absurd howner hi
    initiator := fun hi => absurd howner hi
    initiatorOwn := fun _ => by rw [heq]
    drain := fun _ => by rw [heq]
    drainOwn := fun hd => nomatch howner.symm.trans hd
    writer := fun _ => ⟨hwriter, by rw [heq]⟩
    writerOwn := fun hd => nomatch howner.symm.trans hd }
  rw [initiatorResponse_eq howner hport]
  exact congrArg _ (settle_of_kept hs hmode (by rw [heq]) (by rw [heq]) (by rw [heq]) (by rw [heq]))

/-- Every answer of memory comes to such a point. -/
theorem grantPoint_of_answered (hs : NothingDue s) (hrun : s.run = .running) (hmode : s.mode ≠ .resetting) {c : Instr}
    (h : s.answeredBy c) : ∃ v, GrantPoint s v c := by
  unfold answeredBy at h
  split at h
  · next ho => exact ⟨_, grantPoint_drain hrun hmode ho h _⟩
  · next ok ho =>
    obtain ⟨k, slot, seq, st, hw⟩ | ⟨again, st, hw⟩ := h
    · exact ⟨_, (writerOnly_recordWordResponse s k slot seq ok).grantPoint hs hmode ho
        ((exec_recordWordResponse hrun ok).trans (by rw [recordResponse_word ho hw]))⟩
    · exact ⟨_, (writerOnly_disowned s again).grantPoint hs hmode ho
        ((exec_recordWordResponse hrun ok).trans (by rw [recordResponse_disowned ho hw]))⟩
  · next ok ho =>
    obtain ⟨st, hw⟩ | ⟨p, gen, slot, urgent, st, hw⟩ | ⟨again, st, hw⟩ := h
    · exact ⟨_, (writerOnly_headError s ok (r := { (s.endTransaction.headError ok).records with writer := none }) rfl).grantPoint hs hmode ho
        ((exec_headWordResponse hrun ok).trans (by rw [headWordAnswered_initial ho hw]; rfl))⟩
    · exact ⟨_, (writerOnly_headError s ok (r := { s.records.markUrgent slot urgent with writer := none }) rfl).grantPoint hs hmode ho
        ((exec_headWordResponse hrun ok).trans (by rw [headWordAnswered_head ho hw]; rfl))⟩
    · exact ⟨_, (writerOnly_disowned s again).grantPoint hs hmode ho
        ((exec_headWordResponse hrun ok).trans (by rw [headWordAnswered_disowned ho hw]))⟩
  · next ho =>
    obtain ⟨tk, hport⟩ := h
    exact ⟨_, grantPoint_initiator hs hrun hmode ho hport _ _⟩
  · exact h.elim

/-- The record begun, if any: the writer was IDLE and asks for its first word (R149). -/
structure Begun (v w : State) : Prop where
  engine : w.engine = v.engine
  drain : w.arbiter.drainPlace = v.arbiter.drainPlace
  initiator : w.arbiter.initiatorPlace = v.arbiter.initiatorPlace
  watch : w.watch = v.watch
  grant : w.canGrant = v.canGrant
  record : (w.records.writer = v.records.writer ∧ w.arbiter.recordPlace = v.arbiter.recordPlace) ∨
    (v.records.writer = none ∧ w.records.writer ≠ none ∧ w.arbiter.recordPlace ≠ none)

theorem begun_settleWriter (v : State) : Begun v v.settleWriter := by
  by_cases hb : v.canBeginRecord = true
  · obtain ⟨task, q, heq⟩ := settleWriter_of_canBegin hb
    have hidle : v.records.writer = none := by
      simp only [canBeginRecord, Bool.and_eq_true, Option.isNone_iff_eq_none] at hb
      exact hb.1.1.1.1
    rw [heq]
    exact ⟨rfl, rfl, rfl, rfl, rfl, .inr ⟨hidle, (fun h => nomatch h), fun h => nomatch h⟩⟩
  · rw [settleWriter_of_not_begin v (by simpa using hb)]
    exact ⟨rfl, rfl, rfl, rfl, rfl, .inl ⟨rfl, rfl⟩⟩

theorem Begun.record_of_writer (h : Begun v w) (hw : v.records.writer ≠ none) :
    w.records.writer = v.records.writer ∧ w.arbiter.recordPlace = v.arbiter.recordPlace :=
  h.record.resolve_right (fun ⟨hnone, _⟩ => hw hnone)

section
variable (hbusy : s.arbiter.outstanding.isSome = true) (hgrant : w.canGrant = true)
include hbusy hgrant

/-- A drain engine's request that stood, or follows its own answer, is granted first. -/
theorem arbitrate_drain {q : Request} (h : w.arbiter.drainPlace = some q)
    (hplace : s.arbiter.drainPlace ≠ none ∨ s.arbiter.owner = some .drain) : s.arbitrate w = w.grantTo .drain := by
  obtain ⟨rest, hwait⟩ := waiting_of_drain h
  exact arbitrate_of_head hbusy hgrant hwait (hplace.imp_left Option.isSome_iff_ne_none.mpr)

/-- Else the ring writer's. -/
theorem arbitrate_record (hd : w.arbiter.drainPlace = none) {q : Request} (h : w.arbiter.recordPlace = some q)
    (hplace : s.arbiter.recordPlace ≠ none ∨ s.arbiter.owner = some .record) : s.arbitrate w = w.grantTo .record := by
  obtain ⟨rest, hwait⟩ := waiting_of_record hd h
  exact arbitrate_of_head hbusy hgrant hwait (hplace.imp_left Option.isSome_iff_ne_none.mpr)

omit hbusy in
/-- Else the initiator path's. -/
theorem arbitrate_initiator (hd : w.arbiter.drainPlace = none) (hr : w.arbiter.recordPlace = none) {q : Request}
    (h : w.arbiter.initiatorPlace = some q) : s.arbitrate w = w.grantTo .initiator :=
  arbitrate_of_single s hgrant (waiting_of_initiator hd hr h)

end

/-- Whatever is granted, the engine and the ring writer stay IDLE or BUSY. -/
theorem arbitrate_idle (s w : State) :
    ((s.arbitrate w).engine = none ↔ w.engine = none) ∧ ((s.arbitrate w).records.writer = none ↔ w.records.writer = none) := by
  obtain ⟨heq, -⟩ | ⟨o, -, heq | heq⟩ := w.arbitrate_waiting_cases s <;> rw [heq]
  · exact ⟨Iff.rfl, Iff.rfl⟩
  · exact ⟨grantTo_engine_none o, grantTo_writer_none o⟩
  · exact ⟨grantTo_engine_none (w := w.nextChoice) o, grantTo_writer_none (w := w.nextChoice) o⟩

theorem owner_of_outstanding {o : Owner} {q : Request} (h : a.arbiter.outstanding = some (o, q)) : a.arbiter.owner = some o :=
  congrArg (Option.map Prod.fst) h

theorem owner_grantTo {o : Owner} (h : o ∈ w.arbiter.waiting) : (w.grantTo o).arbiter.owner = some o := by
  obtain ⟨q, hq⟩ := Option.isSome_iff_exists.mp (w.place_of_mem_waiting h)
  exact owner_of_outstanding (grantTo_outstanding hq)

/-- An IDLE arbiter grants a request that stands in its place, and none where every place is empty (R121). -/
theorem arbitrate_grants (s : State) (hgrant : w.canGrant = true) :
    (w.arbiter.waiting = [] ∧ s.arbitrate w = w) ∨
      ∃ o q, w.arbiter.place o = some q ∧ (s.arbitrate w).arbiter.outstanding = some (o, q) := by
  obtain ⟨heq, hempty⟩ | ⟨o, ho, heq⟩ := w.arbitrate_waiting_cases s
  · exact .inl ⟨hempty hgrant, heq⟩
  · obtain ⟨q, hq⟩ := Option.isSome_iff_exists.mp (w.place_of_mem_waiting ho)
    refine .inr ⟨o, q, hq, ?_⟩
    rcases heq with heq | heq <;> rw [heq]
    · exact grantTo_outstanding hq
    · exact grantTo_outstanding (w := w.nextChoice) hq

/-- A waiting initiator's watched access counts one more grant ahead unless it is granted (R134). -/
theorem arbitrate_watch (s : State) (hgrant : w.canGrant = true) {q : Request} (h : w.arbiter.initiatorPlace = some q) :
    ((s.arbitrate w).arbiter.owner = some .initiator → (s.arbitrate w).watch = w.watch) ∧
      ((s.arbitrate w).arbiter.owner ≠ some .initiator →
        (s.arbitrate w).watch = w.watch.map (fun c => { c with grantsAhead := min (c.grantsAhead + 1) 65535 })) := by
  have hne : w.arbiter.initiatorPlace ≠ none := fun hn => nomatch h.symm.trans hn
  have hgranted : ∀ x : State, x.arbiter = w.arbiter → x.watch = w.watch → ∀ o ∈ w.arbiter.waiting,
      ((x.grantTo o).arbiter.owner = some .initiator → (x.grantTo o).watch = w.watch) ∧
        ((x.grantTo o).arbiter.owner ≠ some .initiator →
          (x.grantTo o).watch = w.watch.map (fun c => { c with grantsAhead := min (c.grantsAhead + 1) 65535 })) := by
    intro x hx hxw o ho
    rw [owner_grantTo (hx ▸ ho)]
    refine ⟨fun hi => ?_, fun hi => ?_⟩
    · obtain rfl := Option.some.inj hi
      exact grantTo_watch_initiator.trans hxw
    · rw [grantTo_watch_of_ne (fun hn => hi (congrArg some hn)) (hx ▸ hne), hxw]
  obtain ⟨-, hempty⟩ | ⟨o, ho, heq | heq⟩ := w.arbitrate_waiting_cases s
  · exact absurd ((Arbiter.waiting_eq_nil_iff _).mp (hempty hgrant)).2.2 hne
  · rw [heq]
    exact hgranted w rfl rfl o ho
  · rw [heq]
    exact hgranted w.nextChoice rfl rfl o ho

end State

/-! ## The grant row (O51) -/

theorem exec_grant {s : State} (hrun : s.run = .running) :
    exec .grant s = .next (s.settle (if s.canGrant then s.grantHighest else s)) :=
  happening_of_running hrun (fun a => if a.canGrant then a.grantHighest else a)

/-- The row grants the highest waiting request, and nothing follows. -/
theorem exec_grant_of_head {s : State} (hrun : s.run = .running) (hmode : s.mode ≠ .resetting) (hidle : s.arbiter.outstanding = none)
    (htake : s.canTake = false) (hflush : s.flushDone = false) (hrecord : s.canBeginRecord = false)
    (hirq : s.irq = irqCondition s.records s.link.flags) {o : Owner} {rest : List Owner} (hwait : s.arbiter.waiting = o :: rest) :
    exec .grant s = .next (s.grantTo o) := by
  have hgrant : s.canGrant = true := by simp [State.canGrant, hmode, hidle]
  have hplace : (s.arbiter.place o).isSome = true := s.place_of_mem_waiting (hwait ▸ List.mem_cons_self)
  have hline : (s.grantTo o).irq = irqCondition (s.grantTo o).records (s.grantTo o).link.flags := by
    obtain ⟨q, hq⟩ := Option.isSome_iff_exists.mp hplace
    cases o with
    | drain => rw [State.grantTo_drain _ q hq]; exact hirq
    | record => rw [State.grantTo_record _ q hq]; exact hirq
    | initiator => rw [State.grantTo_initiator _ q hq]; exact hirq
  rw [exec_grant hrun, if_pos hgrant, State.grantHighest, hwait]
  exact congrArg _ (State.settle_of_settled _ _ ⟨State.grantTo_notDue _ hplace htake hflush hrecord, hline⟩)

/-- Settles O51. -/
theorem grantFollowsTheOrder : Obligations.GrantFollowsTheOrder := by
  intro s hrun
  refine ⟨fun hs => ?_, fun hmode hidle htake hflush hrecord hirq => ?_, fun c hs hplace hmode hanswered => ?_⟩
  · by_cases hgrant : s.canGrant = true
    · rw [exec_grant hrun, if_pos hgrant, State.grantHighest, hs.1.2.2.2.2 hgrant, State.settle_of_settled _ _ hs]
    · rw [exec_grant hrun, if_neg hgrant, State.settle_of_settled _ _ hs]
  · intro a ahead
    have hahead : (if s.arbiter.initiatorPlace = none then s.watch
        else s.watch.map (fun w => { w with grantsAhead := satAdd w.grantsAhead 1 })) = ahead := by
      by_cases hi : s.arbiter.initiatorPlace = none
      · simp [ahead, a, hi]
      · simp only [ahead, a, if_neg hi]
        rfl
    refine ⟨fun q hd => ?_, fun q hd hr => ?_, fun q hd hr hi => ?_⟩
    · obtain ⟨rest, hwait⟩ := waiting_of_drain hd
      rw [exec_grant_of_head hrun hmode hidle htake hflush hrecord hirq hwait, State.grantTo_drain _ q hd, hahead]
    · obtain ⟨rest, hwait⟩ := waiting_of_record hd hr
      rw [exec_grant_of_head hrun hmode hidle htake hflush hrecord hirq hwait, State.grantTo_record _ q hr, hahead]
    · rw [exec_grant_of_head hrun hmode hidle htake hflush hrecord hirq (waiting_of_initiator hd hr hi),
        State.grantTo_initiator _ q hi]
  · obtain ⟨v, hv⟩ := State.grantPoint_of_answered hs.1 hrun hmode hanswered
    have hbegun := State.begun_settleWriter v
    generalize hw : v.settleWriter = w at hbegun
    have hexec := hw ▸ hv.exec_eq
    have hgrant : w.canGrant = true := by
      rw [hbegun.grant]
      simp [State.canGrant, hv.idle, hv.mode]
    have hbusy : s.arbiter.outstanding.isSome = true := by
      cases ho : s.arbiter.outstanding with
      | some p => rfl
      | none => simp [State.answeredBy, Arbiter.owner, ho] at hanswered
    obtain ⟨hengine, hwriter⟩ := State.arbitrate_idle s w
    refine ⟨_, hexec, ?_⟩
    intro a granted
    have hgranted : ∀ {o q}, s.arbitrate w = w.grantTo o → w.arbiter.place o = some q → granted = some (o, q) := fun h hq =>
      (congrArg (fun x => x.arbiter.outstanding) h).trans (State.grantTo_outstanding hq)
    have howned : ∀ {o q}, s.arbitrate w = w.grantTo o → w.arbiter.place o = some q → (s.arbitrate w).arbiter.owner = some o :=
      fun h hq => State.owner_of_outstanding (hgranted h hq)
    refine ⟨fun q hq ho => ?_, fun ho hd => ⟨fun he => ?_, fun q hq hwr he => ?_, fun q hq hr he => ?_⟩,
      fun ho hd hr => ⟨fun hwr => ?_, fun q hq hwr => ?_⟩, fun ho hd hi => ⟨fun q hq hwr => ?_, fun hr hwr => ?_⟩, fun q hq ho => ?_⟩
    · have hplace : w.arbiter.drainPlace = some q := hbegun.drain.trans ((hv.drain ho).trans hq)
      exact hgranted (State.arbitrate_drain hbusy hgrant hplace (.inl (fun hn => nomatch hq.symm.trans hn))) hplace
    · have hplace : w.arbiter.drainPlace ≠ none := fun hn =>
        he (hengine.mpr (hbegun.engine.trans ((hv.drainOwn ho hd).mpr (hbegun.drain.symm.trans hn))))
      obtain ⟨q, hq⟩ := Option.ne_none_iff_exists'.mp hplace
      exact howned (State.arbitrate_drain hbusy hgrant hq (.inr ho)) hq
    · have hidle : w.arbiter.drainPlace = none :=
        hbegun.drain.trans ((hv.drainOwn ho hd).mp (hbegun.engine.symm.trans (hengine.mp he)))
      obtain ⟨hvw, hvr⟩ := hv.writer (fun h => nomatch ho.symm.trans h)
      obtain ⟨-, hwr'⟩ := hbegun.record_of_writer (hvw ▸ hwr)
      have hplace : w.arbiter.recordPlace = some q := hwr'.trans (hvr.trans hq)
      exact hgranted (State.arbitrate_record hbusy hgrant hidle hplace (.inl (fun hn => nomatch hq.symm.trans hn))) hplace
    · have hidle : w.arbiter.drainPlace = none :=
        hbegun.drain.trans ((hv.drainOwn ho hd).mp (hbegun.engine.symm.trans (hengine.mp he)))
      obtain ⟨hvw, hvr⟩ := hv.writer (fun h => nomatch ho.symm.trans h)
      have hpassing := hplace.1 (.inl (fun hn => nomatch hq.symm.trans hn))
      have hinitiator : w.arbiter.initiatorPlace = some q :=
        hbegun.initiator.trans ((hv.initiator (fun h => nomatch ho.symm.trans h) hpassing).trans hq)
      obtain ⟨-, hwr⟩ | ⟨hvnone, hwsome, hwr⟩ := hbegun.record
      · have hnone : w.arbiter.recordPlace = none := hwr.trans (hvr.trans hr)
        exact .inl (hgranted (State.arbitrate_initiator hgrant hidle hnone hinitiator) hinitiator)
      · obtain ⟨hempty, -⟩ | ⟨o, r, hr', hout⟩ := State.arbitrate_grants s hgrant
        · exact nomatch hinitiator.symm.trans ((Arbiter.waiting_eq_nil_iff _).mp hempty).2.2
        · cases o with
          | drain => exact nomatch hr'.symm.trans hidle
          | record =>
            refine .inr ⟨fun heq => hwsome (hwriter.mp ?_), State.owner_of_outstanding hout⟩
            exact heq.trans (hvw.symm.trans hvnone)
          | initiator =>
            obtain rfl := Option.some.inj (hinitiator.symm.trans hr')
            exact .inl hout
    · have hidle : w.arbiter.drainPlace = none := hbegun.drain.trans ((hv.drain (fun h => nomatch ho.symm.trans h)).trans hd)
      have hplace : w.arbiter.recordPlace ≠ none := by
        obtain ⟨hww, hwr'⟩ | ⟨-, -, hwr'⟩ := hbegun.record
        · exact fun hn => hwr (hwriter.mpr (hww.trans ((hv.writerOwn ho hr).mpr (hwr'.symm.trans hn))))
        · exact hwr'
      obtain ⟨q, hq⟩ := Option.ne_none_iff_exists'.mp hplace
      exact howned (State.arbitrate_record hbusy hgrant hidle hq (.inr ho)) hq
    · have hidle : w.arbiter.drainPlace = none := hbegun.drain.trans ((hv.drain (fun h => nomatch ho.symm.trans h)).trans hd)
      have hnone : w.arbiter.recordPlace = none := by
        obtain ⟨hww, hwr'⟩ | ⟨-, hwsome, -⟩ := hbegun.record
        · exact hwr'.trans ((hv.writerOwn ho hr).mp (hww.symm.trans (hwriter.mp hwr)))
        · exact absurd (hwriter.mp hwr) hwsome
      have hpassing := hplace.1 (.inl (fun hn => nomatch hq.symm.trans hn))
      have hinitiator : w.arbiter.initiatorPlace = some q :=
        hbegun.initiator.trans ((hv.initiator (fun h => nomatch ho.symm.trans h) hpassing).trans hq)
      exact hgranted (State.arbitrate_initiator hgrant hidle hnone hinitiator) hinitiator
    · have hidle : w.arbiter.drainPlace = none := hbegun.drain.trans ((hv.drain (fun h => nomatch ho.symm.trans h)).trans hd)
      obtain ⟨hvw, hvr⟩ := hv.writer (fun h => nomatch ho.symm.trans h)
      have hrecord : w.arbiter.recordPlace = some q := (hbegun.record_of_writer (hvw ▸ hwr)).2.trans (hvr.trans hq)
      exact hgranted (State.arbitrate_record hbusy hgrant hidle hrecord (.inl (fun hn => nomatch hq.symm.trans hn))) hrecord
    · have hidle : w.arbiter.drainPlace = none := hbegun.drain.trans ((hv.drain (fun h => nomatch ho.symm.trans h)).trans hd)
      have hinitiator : w.arbiter.initiatorPlace = none := hbegun.initiator.trans ((hv.initiatorOwn ho).trans hi)
      obtain ⟨hvw, hvr⟩ := hv.writer (fun h => nomatch ho.symm.trans h)
      obtain ⟨-, hwr'⟩ | ⟨hvnone, hwsome, -⟩ := hbegun.record
      · have hempty := (Arbiter.waiting_eq_nil_iff w.arbiter).mpr ⟨hidle, hwr'.trans (hvr.trans hr), hinitiator⟩
        obtain ⟨-, heq⟩ | ⟨o, q, hq, -⟩ := State.arbitrate_grants s hgrant
        · refine (congrArg (fun x => x.arbiter.outstanding) heq).trans ?_
          simp only [State.canGrant, Bool.and_eq_true, Option.isNone_iff_eq_none] at hgrant
          exact hgrant.1
        · have hno : w.arbiter.place o = none := by cases o <;> simp [Arbiter.place, hidle, hinitiator, hwr'.trans (hvr.trans hr)]
          exact nomatch hq.symm.trans hno
      · exact absurd (hwriter.mp (hwr.trans (hvw.symm.trans hvnone))) hwsome
    · have hpassing := hplace.1 (.inl (fun hn => nomatch hq.symm.trans hn))
      have hinitiator : w.arbiter.initiatorPlace = some q := hbegun.initiator.trans ((hv.initiator ho hpassing).trans hq)
      have hwatch : w.watch = s.watch := hbegun.watch.trans (hv.watch ho)
      obtain ⟨hgiven, hahead⟩ := State.arbitrate_watch s hgrant hinitiator
      exact ⟨fun h => (hgiven h).trans hwatch, fun h => (hahead h).trans (by rw [hwatch])⟩

end Sys2Proof.Machine
end

section
/-! PROOF. What the group table does in one happening, as one new table: a pass over the groups, the return states (R40) and the
takes that follow one another in ACTIVE (R58, R62). -/

namespace Sys2Proof.Machine

/-! ## Tables by their entries -/

theorem Table8.tabulate_get {α : Type} (t : Table8 α) : Table8.tabulate t.get = t := Table8.ext_get fun i => by simp

theorem Table8.set_eq_tabulate {α : Type} (t : Table8 α) (i : Fin 8) (a : α) :
    t.set i a = Table8.tabulate (Function.update t.get i a) :=
  Table8.ext_get fun j => by
    rw [Table8.get_set, Table8.get_tabulate, Function.update_apply]

/-- The two marks of a group. -/
def Due.marksAt (d : Due) (g : GroupNum) : Bool × Bool := (d.sealPoint.get g, d.commitInstant.get g)

namespace State
variable {s a : State}

/-! ## A new group table -/

/-- The device with the groups `v`, the commit queue `q`, the marks `d`, and the records `bs` handed over. -/
def put (s : State) (v : GroupNum → Group) (q : List GroupNum) (bs : List RecordBody) (d : Due) : State :=
  { s with groups := .tabulate v, commitQueue := q, records := bs.foldl RecordUnit.handOver s.records, due := d }

@[simp] theorem put_group (v : GroupNum → Group) (q : List GroupNum) (bs : List RecordBody) (d : Due) (g : GroupNum) :
    (s.put v q bs d).group g = v g := Table8.get_tabulate v g

@[simp] theorem put_mode (v : GroupNum → Group) (q : List GroupNum) (bs : List RecordBody) (d : Due) : (s.put v q bs d).mode = s.mode := rfl

@[simp] theorem put_time (v : GroupNum → Group) (q : List GroupNum) (bs : List RecordBody) (d : Due) : (s.put v q bs d).time = s.time := rfl

@[simp] theorem put_queue (v : GroupNum → Group) (q : List GroupNum) (bs : List RecordBody) (d : Due) : (s.put v q bs d).commitQueue = q := rfl

@[simp] theorem put_due (v : GroupNum → Group) (q : List GroupNum) (bs : List RecordBody) (d : Due) : (s.put v q bs d).due = d := rfl

theorem put_put (v v' : GroupNum → Group) (q q' : List GroupNum) (bs bs' : List RecordBody) (d d' : Due) :
    (s.put v q bs d).put v' q' bs' d' = s.put v' q' (bs ++ bs') d' := by
  simp only [put, List.foldl_append]

theorem put_self (s : State) : s.put s.group s.commitQueue [] s.due = s := by
  have h : Table8.tabulate s.group = s.groups := Table8.tabulate_get s.groups
  simp only [put, h, List.foldl_nil]

theorem reports_put (v : GroupNum → Group) (q : List GroupNum) (bs : List RecordBody) (d : Due) : Reports s (s.put v q bs d) bs :=
  ⟨rfl, rfl⟩

/-- The device with one group changed, an end to the queue, and records. -/
def update (s : State) (g : GroupNum) (y : Group) (q : List GroupNum) (bs : List RecordBody) (d : Due) : State :=
  s.put (Function.update s.group g y) q bs d

theorem update_eq (g : GroupNum) (y : Group) (q : List GroupNum) (bs : List RecordBody) (d : Due) :
    s.update g y q bs d = { s with
      groups := s.groups.set g y, commitQueue := q, records := bs.foldl RecordUnit.handOver s.records, due := d } := by
  rw [update, put, Table8.set_eq_tabulate]
  rfl

/-- The fields that the treatment of group `g` looks at. -/
structure Agrees (a b : State) (g : GroupNum) : Prop where
  group : b.group g = a.group g
  time : b.time = a.time
  mode : b.mode = a.mode
  marks : b.due.marksAt g = a.due.marksAt g

theorem Agrees.refl (a : State) (g : GroupNum) : Agrees a a g := ⟨rfl, rfl, rfl, rfl⟩

/-- A pass over some of the groups, each of which it treats by its own fields and its own marks. -/
theorem foldl_pass (f : GroupNum → State → State) (mark : Due → GroupNum → Due) (y : GroupNum → Group) (queued : GroupNum → Bool)
    (bs : GroupNum → List RecordBody) (hmark : ∀ d g h, h ≠ g → (mark d g).marksAt h = d.marksAt h) (l : List GroupNum) :
    ∀ a : State, l.Nodup →
      (∀ g ∈ l, ∀ b, Agrees a b g →
        f g b = b.update g (y g) (b.commitQueue ++ if queued g = true then [g] else []) (bs g) (mark b.due g)) →
      l.foldl (fun acc g => f g acc) a =
        a.put (fun g => if g ∈ l then y g else a.group g) (a.commitQueue ++ l.filter queued) (l.flatMap bs) (l.foldl mark a.due) := by
  induction l with
  | nil => exact fun a _ _ => by simp [put_self]
  | cons g l ih =>
    intro a hnodup hf
    obtain ⟨hg, hl⟩ := List.nodup_cons.mp hnodup
    have hfirst := hf g List.mem_cons_self a (Agrees.refl a g)
    have hrest := ih (f g a) hl (fun h hh b hb => hf h (List.mem_cons_of_mem g hh) b ?_)
    · rw [List.foldl_cons, hrest, hfirst, update, put_put, put_queue, put_due, List.append_assoc]
      congr 1
      · funext h
        by_cases hh : h ∈ l
        · simp [hh]
        · by_cases he : h = g
          · subst he
            simp [hh]
          · simp [hh, he]
      · rw [List.filter_cons]
        split <;> simp
    · have hne : h ≠ g := fun he => hg (he ▸ hh)
      rw [hfirst] at hb
      refine ⟨hb.group.trans ?_, hb.time, hb.mode, hb.marks.trans (hmark a.due g h hne)⟩
      rw [update, put_group, Function.update_of_ne hne]

theorem foldl_no_mark (l : List GroupNum) (d : Due) : l.foldl (fun d _ => d) d = d := by
  induction l with
  | nil => rfl
  | cons g l ih => exact ih

theorem nodup_allGroups : allGroups.Nodup := by decide

/-- A pass over every group that takes up no mark. -/
theorem forGroups_pass (f : GroupNum → State → State) (y : GroupNum → Group) (queued : GroupNum → Bool)
    (bs : GroupNum → List RecordBody) (a : State)
    (hf : ∀ g b, Agrees a b g → f g b = b.update g (y g) (b.commitQueue ++ if queued g = true then [g] else []) (bs g) b.due) :
    a.forGroups f = a.put y (a.commitQueue ++ allGroups.filter queued) (allGroups.flatMap bs) a.due := by
  have h := foldl_pass f (fun d _ => d) y queued bs (fun _ _ _ _ => rfl) allGroups a nodup_allGroups (fun g _ b hb => hf g b hb)
  rw [foldl_no_mark] at h
  simp only [mem_allGroups, if_true] at h
  exact h

end State

/-! ## The return state (R40) -/

/-- The seal point of a group that comes back to ARMED lies behind `now`, so that instants are skipped (R40). -/
def Group.passedAtReturn (x : Group) (now : Time) (n : Time) : Bool :=
  x.returnState == .armed && x.trigger.timed && atOrBefore now (x.sealPointOf n)

/-- How many instants a group skips that takes its return state in ACTIVE (R40). -/
def Group.returnSkips (x : Group) (now : Time) : Nat :=
  match x.nextInstant with
  | none => 0
  | some n =>
    if x.passedAtReturn now n = true then
      match x.trigger with
      | .periodic => x.behindCount now n
      | .oneshot | .cycle | .manual => 1
    else 0

/-- The group after its epoch in ACTIVE (R40). -/
def Group.onReturn (x : Group) (now : Time) : Group :=
  match x.returnState with
  | .opened => { x with state := .opened, nextInstant := none, returnState := .opened }
  | .armed =>
    let y := { x with state := .armed, returnState := .opened, overrunCount := satAdd x.overrunCount (x.returnSkips now) }
    if x.returnSkips now = 0 then { x with state := .armed, returnState := .opened }
    else if x.trigger = .oneshot then { y with nextInstant := none, state := .opened }
    else y.advanceInstant (x.returnSkips now)

theorem jumpReport_pos {g : GroupNum} {now : Time} {k : Nat} (h : k ≠ 0) : jumpReport g now k = [.overrun g now .jump (min k 65535)] :=
  if_neg h

theorem jumpReport_zero (g : GroupNum) (now : Time) : jumpReport g now 0 = [] := rfl

/-- A group that takes its return state OPEN, in any mode. -/
theorem takeReturnState_of_opened {s : State} {g : GroupNum} (h : (s.group g).returnState = .opened) :
    s.takeReturnState g = s.update g ((s.group g).onReturn s.time) s.commitQueue (jumpReport g s.time ((s.group g).returnSkips s.time))
      s.due := by
  have hskips : (s.group g).returnSkips s.time = 0 := by
    unfold Group.returnSkips
    split
    · rfl
    · rw [if_neg (by simp [Group.passedAtReturn, h])]
  rw [hskips, State.update_eq, State.takeReturnState, Group.onReturn]
  simp only [h]
  rfl

theorem countOverrun_setGroup (s : State) (g : GroupNum) (y : Group) (cause : OverrunCause) (k : Nat) :
    (s.setGroup g y).countOverrun g cause k = { s with
      groups := s.groups.set g { y with overrunCount := satAdd y.overrunCount k }
      records := s.records.handOver (.overrun g s.time cause (min k 65535)) } := by
  rw [State.countOverrun, State.modifyGroup_eq, State.group_setGroup_self, State.setGroup_setGroup]
  rfl

theorem modifyGroup_setGroup (s : State) (g : GroupNum) (y : Group) (f : Group → Group) :
    (s.setGroup g y).modifyGroup g f = s.setGroup g (f y) := by
  rw [State.modifyGroup_eq, State.group_setGroup_self, State.setGroup_setGroup]

/-- A group that takes its return state in ACTIVE. -/
theorem takeReturnState_of_active {s : State} (hmode : s.mode = .active) (g : GroupNum) :
    s.takeReturnState g = s.update g ((s.group g).onReturn s.time) s.commitQueue (jumpReport g s.time ((s.group g).returnSkips s.time))
      s.due := by
  cases hr : (s.group g).returnState with
  | opened => exact takeReturnState_of_opened hr
  | armed =>
    have hleft : s.takeReturnState g =
        (s.setGroup g { s.group g with state := .armed, returnState := .opened }).checkPassedSeal g := by
      simp only [State.takeReturnState, hr, if_pos hmode]
      rfl
    rw [hleft, State.checkPassedSeal, State.group_setGroup_self, State.update_eq]
    generalize s.group g = x at hr
    obtain ⟨state, trigger, next, period, offset, guardTicks⟩ := x
    obtain rfl : _ = ReturnState.armed := hr
    cases next with
    | none => rfl
    | some n =>
      have htime : ∀ y, (s.setGroup g y).time = s.time := fun _ => rfl
      simp only [htime, Group.onReturn, Group.returnSkips, Group.passedAtReturn, Group.sealPointOf, modifyGroup_setGroup,
        countOverrun_setGroup]
      by_cases hb : atOrBefore s.time (n - guardTicks.setWidth 48) = true
      · cases trigger with
        | oneshot => simp [hb, Trigger.timed, jumpReport_pos]
        | periodic => simp [hb, Trigger.timed, jumpReport_pos, Group.behindCount, Group.advanceInstant, Group.sealPointOf]
        | cycle => simp [Trigger.timed, jumpReport_zero, State.setGroup]
        | manual => simp [Trigger.timed, jumpReport_zero, State.setGroup]
      · simp [hb, jumpReport_zero, State.setGroup]

theorem atOrBefore_iff (now n : Time) (guardTicks : BitVec 16) :
    atOrBefore now (n - guardTicks.setWidth 48) = true ↔ SealBehind now n guardTicks := decide_eq_true_iff

/-- The seal points of a PERIODIC group, from one that lies at or behind `now`, up to the first that lies ahead (R40). -/
theorem sealBehind_upTo {now n : Time} {guardTicks : BitVec 16} {period : BitVec 32} (h : SealBehind now n guardTicks) (hp : period ≠ 0) :
    let k := distance (n - guardTicks.setWidth 48) now / period.toNat + 1
    (∀ j < k, SealBehind now (n + BitVec.ofNat 48 (j * period.toNat)) guardTicks) ∧
      ¬ SealBehind now (n + BitVec.ofNat 48 (k * period.toNat)) guardTicks := by
  have hpos : 0 < period.toNat := Nat.pos_of_ne_zero fun h0 => hp (BitVec.eq_of_toNat_eq h0)
  have hlt := period.isLt
  have hd : ∀ m : Nat, (now - (n + BitVec.ofNat 48 m - guardTicks.setWidth 48)) =
      (now - (n - guardTicks.setWidth 48)) - BitVec.ofNat 48 m := by
    intro m
    ring
  intro k
  have hk : k = (now - (n - guardTicks.setWidth 48)).toNat / period.toNat + 1 := rfl
  unfold SealBehind at h ⊢
  simp only [hd]
  generalize now - (n - guardTicks.setWidth 48) = e at h hk
  generalize period.toNat = p at hpos hlt hk
  have hdiv : e.toNat / p * p ≤ e.toNat := Nat.div_mul_le_self _ _
  have hmod : e.toNat < (e.toNat / p + 1) * p := by
    rw [Nat.add_mul, Nat.one_mul]
    exact Nat.lt_div_mul_add hpos
  refine ⟨fun j hj => ?_, ?_⟩
  · have hle : j * p ≤ e.toNat := le_trans (Nat.mul_le_mul_right p (by omega)) hdiv
    rw [BitVec.toNat_sub, BitVec.toNat_ofNat]
    omega
  · have hsplit : k * p = e.toNat / p * p + p := by rw [hk, Nat.add_mul, Nat.one_mul]
    rw [← hk] at hmod
    rw [BitVec.toNat_sub, BitVec.toNat_ofNat]
    omega

/-- What a group becomes on its return state is what R40 says. -/
theorem returned_onReturn (now : Time) (x : Group) : Returned now x (x.onReturn now) (x.returnSkips now) := by
  have hskips_opened : x.returnState = .opened → x.returnSkips now = 0 := by
    intro h
    unfold Group.returnSkips
    split
    · rfl
    · rw [if_neg (by simp [Group.passedAtReturn, h])]
  have hskips_still : ∀ n, x.nextInstant = some n → x.passedAtReturn now n = false → x.returnSkips now = 0 := by
    intro n hn hp
    simp [Group.returnSkips, hn, hp]
  have harmed : x.returnState = .armed → x.returnSkips now = 0 →
      x.onReturn now = { x with returnState := .opened, state := .armed } := by
    intro h hk
    simp only [Group.onReturn, h, hk, if_true]
  unfold Returned
  intro back behind
  refine ⟨fun h => ⟨?_, hskips_opened h⟩, fun h ht => ?_, fun n hn h ht hb => ?_, fun n hn h ht hb => ?_, fun n hn h ht hb hp => ?_⟩
  · simp only [Group.onReturn, h]
    rfl
  · have hk : x.returnSkips now = 0 := by
      cases hn : x.nextInstant with
      | none => simp [Group.returnSkips, hn]
      | some n =>
        refine hskips_still n hn ?_
        rcases ht with ht | ht | ht
        · simp [Group.passedAtReturn, ht, Trigger.timed]
        · simp [Group.passedAtReturn, ht, Trigger.timed]
        · exact nomatch hn.symm.trans ht
    exact ⟨harmed h hk, hk⟩
  · have hpassed : x.passedAtReturn now n = false := by
      have hnot : atOrBefore now (x.sealPointOf n) ≠ true := fun hc => hb ((atOrBefore_iff _ _ _).mp hc)
      simp [Group.passedAtReturn, hnot]
    exact ⟨harmed h (hskips_still n hn hpassed), hskips_still n hn hpassed⟩
  · have hpassed : x.passedAtReturn now n = true := by
      have hyes : atOrBefore now (x.sealPointOf n) = true := (atOrBefore_iff _ _ _).mpr hb
      simp [Group.passedAtReturn, hyes, h, ht, Trigger.timed]
    have hk : x.returnSkips now = 1 := by simp [Group.returnSkips, hn, hpassed, ht]
    refine ⟨?_, hk⟩
    simp only [Group.onReturn, h, hk, Nat.one_ne_zero, if_false, if_pos ht]
    rfl
  · have hyes : atOrBefore now (x.sealPointOf n) = true := (atOrBefore_iff _ _ _).mpr hb
    have hpassed : x.passedAtReturn now n = true := by simp [Group.passedAtReturn, hyes, h, ht, Trigger.timed]
    have hk : x.returnSkips now = x.behindCount now n := by simp [Group.returnSkips, hn, hpassed, ht]
    have hpos : x.behindCount now n ≠ 0 := Nat.succ_ne_zero _
    obtain ⟨hupto, hafter⟩ := sealBehind_upTo hb hp
    rw [hk]
    refine ⟨Nat.one_le_iff_ne_zero.mpr hpos, hupto, hafter, ?_⟩
    have hne : x.trigger ≠ .oneshot := fun hc => nomatch hc.symm.trans ht
    simp only [Group.onReturn, h, hk, if_neg hpos, if_neg hne, Group.advanceInstant, hn]
    rfl

end Sys2Proof.Machine
end

section
/-! PROOF. The group table's turn and the takes that follow one another (R58, R62), as one new table. -/

namespace Sys2Proof.Machine

namespace State
variable {s a : State}

/-- Records alone. -/
theorem update_same (s : State) (g : GroupNum) (bs : List RecordBody) :
    s.update g (s.group g) s.commitQueue bs s.due = s.setRecords (bs.foldl RecordUnit.handOver s.records) := by
  have h : Table8.tabulate s.group = s.groups := Table8.tabulate_get s.groups
  rw [update, Function.update_eq_self, put, h]
  rfl

theorem update_self (s : State) (g : GroupNum) : s.update g (s.group g) s.commitQueue [] s.due = s := update_same s g []

/-- The LATE record that waits, at its group's turn. -/
def lateAt (late : Option (GroupNum × RecordBody)) (g : GroupNum) : List RecordBody :=
  match late with
  | none => []
  | some (h, b) => if h = g then [b] else []

theorem handOverLate_eq (late : Option (GroupNum × RecordBody)) (g : GroupNum) :
    s.handOverLate late g = s.update g (s.group g) s.commitQueue (lateAt late g) s.due := by
  rw [update_same]
  cases late with
  | none => rfl
  | some p =>
    obtain ⟨h, b⟩ := p
    by_cases he : h = g
    · rw [handOverLate, if_pos he, lateAt, if_pos he]
      rfl
    · rw [handOverLate, if_neg he, lateAt, if_neg he]
      rfl

theorem update_update (g : GroupNum) (y y' : Group) (q q' : List GroupNum) (bs bs' : List RecordBody) (d d' : Due) :
    (s.update g y q bs d).update g y' q' bs' d' = s.update g y' q' (bs ++ bs') d' := by
  have h : (s.put (Function.update s.group g y) q bs d).group = Function.update s.group g y := funext fun h => put_group _ _ _ _ h
  rw [update, update, put_put, h, Function.update_idem, update]

/-- The groups of `done` take their return states here (R40): in ACTIVE, or outside the flush with return state OPEN. -/
def ReturnsHere (s : State) (done : List GroupNum) : Prop :=
  s.mode = .active ∨ (s.mode ≠ .quiescing ∧ ∀ g ∈ done, (s.group g).returnState = .opened)

/-- The groups after the turn of the group table (R62). -/
def afterTurn (s : State) (done : List GroupNum) (g : GroupNum) : Group :=
  if g ∈ done then (s.group g).onReturn s.time else s.group g

/-- The records of a turn of the group table, one group's share. -/
def turnReports (s : State) (late : Option (GroupNum × RecordBody)) (done : List GroupNum) (g : GroupNum) : List RecordBody :=
  lateAt late g ++ if g ∈ done then jumpReport g s.time ((s.group g).returnSkips s.time) else []

/-- The turn of the group table in ascending group number (R62, R142). -/
theorem groupTurn_eq (late : Option (GroupNum × RecordBody)) (done : List GroupNum) (h : s.ReturnsHere done) :
    s.groupTurn late done = s.put (s.afterTurn done) s.commitQueue (allGroups.flatMap (s.turnReports late done)) s.due := by
  have hpass := forGroups_pass (fun g acc => if done.contains g then (acc.handOverLate late g).afterEpoch g else acc.handOverLate late g)
    (s.afterTurn done) (fun _ => false) (s.turnReports late done) s ?_
  · have hq : allGroups.filter (fun _ => false) = [] := by simp
    rw [hq, List.append_nil] at hpass
    exact hpass
  · intro g b hb
    have hq : (b.commitQueue ++ if (false : Bool) = true then [g] else []) = b.commitQueue := by simp
    rw [hq, handOverLate_eq]
    by_cases hg : g ∈ done
    · have hself : (b.update g (b.group g) b.commitQueue (lateAt late g) b.due).group g = s.group g := by
        rw [update, put_group, Function.update_self, hb.group]
      have hreturn : (b.update g (b.group g) b.commitQueue (lateAt late g) b.due).afterEpoch g =
          (b.update g (b.group g) b.commitQueue (lateAt late g) b.due).update g ((s.group g).onReturn s.time) b.commitQueue
            (jumpReport g s.time ((s.group g).returnSkips s.time)) b.due := by
        have hmode : (b.update g (b.group g) b.commitQueue (lateAt late g) b.due).mode = s.mode := hb.mode
        have htime : (b.update g (b.group g) b.commitQueue (lateAt late g) b.due).time = s.time := hb.time
        rcases h with ha | ⟨hnot, hopened⟩
        · rw [afterEpoch, if_neg (by rw [hmode, ha]; decide), takeReturnState_of_active (by rw [hmode, ha]), hself, htime]
          rfl
        · rw [afterEpoch, if_neg (by rw [hmode]; exact hnot), takeReturnState_of_opened (by rw [hself]; exact hopened g hg), hself, htime]
          rfl
      rw [if_pos (by simpa using hg), hreturn, update_update, afterTurn, if_pos hg, turnReports, if_pos hg]
    · rw [if_neg (by simpa using hg), afterTurn, if_neg hg, turnReports, if_neg hg, List.append_nil, hb.group]

theorem flatMap_only {A : List RecordBody} {g : GroupNum} (f : GroupNum → List RecordBody) (hg : f g = A) (h : ∀ i, i ≠ g → f i = []) :
    allGroups.flatMap f = A := by
  have hf : ∀ l : List GroupNum, l.Nodup → l.flatMap f = if g ∈ l then A else [] := by
    intro l hl
    induction l with
    | nil => rfl
    | cons i l ih =>
      obtain ⟨hi, hl⟩ := List.nodup_cons.mp hl
      rw [List.flatMap_cons, ih hl]
      by_cases he : i = g
      · subst he
        rw [hg, if_neg hi, if_pos List.mem_cons_self, List.append_nil]
      · rw [h i he, List.nil_append]
        simp [Ne.symm he]
  rw [hf _ nodup_allGroups, if_pos (mem_allGroups g)]

/-- Two groups' shares stand in ascending group number (R142). -/
theorem flatMap_two {A B : List RecordBody} {g h : GroupNum} (hlt : h < g) (f : GroupNum → List RecordBody) (hg : f g = A) (hh : f h = B)
    (hother : ∀ i, i ≠ g → i ≠ h → f i = []) : allGroups.flatMap f = B ++ A := by
  have hsorted : allGroups.Pairwise (· < ·) := by decide
  have hf : ∀ l : List GroupNum, l.Pairwise (· < ·) →
      l.flatMap f = (if h ∈ l then B else []) ++ (if g ∈ l then A else []) := by
    intro l hl
    induction l with
    | nil => rfl
    | cons i l ih =>
      obtain ⟨hi, hl⟩ := List.pairwise_cons.mp hl
      rw [List.flatMap_cons, ih hl]
      by_cases heh : i = h
      · subst heh
        have hnot : i ∉ l := fun hm => lt_irrefl _ (hi i hm)
        simp [hh, hnot, hlt.ne']
      · by_cases heg : i = g
        · subst heg
          have hnot : i ∉ l := fun hm => lt_irrefl _ (hi i hm)
          have hnoth : h ∉ l := fun hm => lt_asymm hlt (hi h hm)
          simp [hg, hnot, hnoth, Ne.symm heh]
        · rw [hother i heg heh]
          simp [Ne.symm heg, Ne.symm heh]
  rw [hf _ hsorted, if_pos (mem_allGroups h), if_pos (mem_allGroups g)]

/-! ## Completions at a take (R58, R62) -/

/-- The end of an epoch at a response or a take (R62 steps 1 to 4). -/
theorem finishEpoch_update (s : State) (g : GroupNum) :
    s.finishEpoch g = { s.update g (s.group g).epochDone s.commitQueue
      ((s.group g).doneReport g (s.group g).progress.entriesWritten s.time) s.due with engine := none } := by
  rw [finishEpoch_eq, update_eq, Group.doneReport]
  split <;> rfl

/-- The end of an abandoned epoch (R65). -/
theorem finishAbandon_update (s : State) (g : GroupNum) :
    s.finishAbandon g = { s.update g (s.group g).epochClosed s.commitQueue [] s.due with engine := none } := by
  rw [update_eq]
  rfl

end State

/-- The epoch of such a group completes at its take (R58). -/
def Group.CompletesAtTake (x : Group) : Prop :=
  x.progress.begun = false ∧ x.progress.abandonPending = false ∧ x.marker = none ∧ x.outgoing = []

theorem takeOutcome_completes {x : Group} (h : x.CompletesAtTake) : x.takeOutcome = .completes := by
  obtain ⟨hb, ha, hm, ho⟩ := h
  simp [Group.takeOutcome, Group.firstStep, ha, hb, hm, ho]

namespace State
variable {s a : State}

/-- A group taken that has not been taken before. -/
theorem taken_eq {g : GroupNum} (hb : (s.group g).progress.begun = false) (rest : List GroupNum) :
    s.taken g rest = s.update g ((s.group g).takenAt s.time) rest [] s.due := by
  rw [taken, progress_taken_of_not_begun hb, update_eq]
  rfl

theorem finishEpoch_taken (he : s.engine = none) {g : GroupNum} (hx : (s.group g).CompletesAtTake) (rest : List GroupNum) :
    (s.taken g rest).finishEpoch g =
      s.update g ((s.group g).takenAt s.time).epochDone rest (((s.group g).takenAt s.time).doneReport g 0 s.time) s.due := by
  have hself : (s.update g ((s.group g).takenAt s.time) rest [] s.due).group g = (s.group g).takenAt s.time := by
    rw [update, put_group, Function.update_self]
  have hengine : ∀ b : State, b.engine = none → ({ b with engine := none } : State) = b := fun b hb => by rw [← hb]
  rw [finishEpoch_update, taken_eq hx.1, hself, hengine _ (by exact he)]
  exact update_update g _ _ rest rest [] _ s.due s.due

/-- The groups after the epochs of `comp` have completed at their takes. -/
def afterTakes (s : State) (comp : List GroupNum) (g : GroupNum) : Group :=
  if g ∈ comp then ((s.group g).takenAt s.time).epochDone else s.group g

/-- The COMMIT_DONE records of the epochs that complete at their takes, in the order of the takes. -/
def takeReports (s : State) (comp : List GroupNum) : List RecordBody :=
  comp.flatMap (fun g => ((s.group g).takenAt s.time).doneReport g 0 s.time)

/-- The takes of the groups `comp` at the head of the queue, whose epochs complete at them. -/
theorem takeChain_completing (late : Option (GroupNum × RecordBody)) (rest : List GroupNum) (comp : List GroupNum) :
    ∀ (s : State) (done : List GroupNum) (n : Nat), s.engine = none → s.mode ≠ .resetting → s.commitQueue = comp ++ rest → comp.Nodup →
      (∀ g ∈ comp, (s.group g).CompletesAtTake) →
      s.takeChain late done (comp.length + n) =
        (s.put (s.afterTakes comp) rest (s.takeReports comp) s.due).takeChain late (comp.reverse ++ done) n := by
  induction comp with
  | nil =>
    intro s done n _ _ hq _ _
    have hsame : s.put (s.afterTakes []) rest (s.takeReports []) s.due = s := by
      have h := s.put_self
      rw [hq] at h
      exact h
    rw [hsame]
    simp
  | cons g comp ih =>
    intro s done n he hmode hq hnodup hcomp
    obtain ⟨hg, hnodup⟩ := List.nodup_cons.mp hnodup
    have hcan : s.canTake = true := by simp [canTake, he, hq, hmode]
    have hx := hcomp g List.mem_cons_self
    have hfirst : s.takeChain late done ((g :: comp).length + n) =
        ((s.taken g (comp ++ rest)).finishEpoch g).takeChain late (g :: done) (comp.length + n) := by
      rw [List.length_cons, Nat.add_right_comm]
      obtain ⟨hno, -⟩ | ⟨h, tail, -, hq', ⟨kind, step, hstep, -⟩ | ⟨-, heq⟩⟩ := s.takeChain_succ_cases late done (comp.length + n)
      · exact nomatch hcan.symm.trans hno
      · obtain ⟨rfl, -⟩ := List.cons.inj (hq.symm.trans hq')
        exact nomatch (takeOutcome_completes hx).symm.trans hstep
      · obtain ⟨rfl, rfl⟩ := List.cons.inj (hq.symm.trans hq')
        exact heq
    have hne : ∀ h ∈ comp, h ≠ g := fun h hh he => hg (he ▸ hh)
    let u := s.update g ((s.group g).takenAt s.time).epochDone (comp ++ rest) (((s.group g).takenAt s.time).doneReport g 0 s.time) s.due
    have hother : ∀ h, h ≠ g → u.group h = s.group h := fun h hh => by
      rw [show u = s.update g _ _ _ _ from rfl, update, put_group, Function.update_of_ne hh]
    have hself : u.group g = ((s.group g).takenAt s.time).epochDone := by
      rw [show u = s.update g _ _ _ _ from rfl, update, put_group, Function.update_self]
    have hreports : s.takeReports (g :: comp) = ((s.group g).takenAt s.time).doneReport g 0 s.time ++ u.takeReports comp := by
      rw [takeReports, List.flatMap_cons, takeReports]
      refine congrArg _ (List.flatMap_congr fun h hh => ?_)
      rw [hother h (hne h hh)]
      rfl
    have hgroups : s.afterTakes (g :: comp) = u.afterTakes comp := by
      funext h
      by_cases hh : h ∈ comp
      · rw [afterTakes, if_pos (List.mem_cons_of_mem g hh), afterTakes, if_pos hh, hother h (hne h hh)]
        rfl
      · by_cases hhg : h = g
        · rw [hhg, afterTakes, if_pos List.mem_cons_self, afterTakes, if_neg hg, hself]
        · rw [afterTakes, if_neg (by simp [hh, hhg]), afterTakes, if_neg hh, hother h hhg]
    rw [hfirst, finishEpoch_taken he hx, ih u (g :: done) n he hmode rfl hnodup
      (fun h hh => by rw [hother h (hne h hh)]; exact hcomp h (List.mem_cons_of_mem g hh)), hgroups, hreports, List.reverse_cons,
      List.append_assoc]
    congr 1
    exact put_put _ _ _ rest _ _ s.due s.due

/-- The takes of groups whose epochs complete at them, and nothing queued behind them. -/
theorem takeChain_of_completing (late : Option (GroupNum × RecordBody)) {comp : List GroupNum} {s : State} (done : List GroupNum)
    (he : s.engine = none) (hmode : s.mode ≠ .resetting) (hq : s.commitQueue = comp) (hnodup : comp.Nodup)
    (hcomp : ∀ g ∈ comp, (s.group g).CompletesAtTake) :
    s.takeAll late done = (s.put (s.afterTakes comp) [] (s.takeReports comp) s.due).groupTurn late (comp.reverse ++ done) := by
  have h := takeChain_completing late [] comp s done 0 he hmode (by rw [hq, List.append_nil]) hnodup hcomp
  rw [takeAll, hq]
  exact h

/-- The takes of groups whose epochs complete at them, and the take of the next, which asks for a step. -/
theorem takeChain_of_step (late : Option (GroupNum × RecordBody)) {comp tail : List GroupNum} {h : GroupNum} {s : State}
    (done : List GroupNum) (he : s.engine = none) (hmode : s.mode ≠ .resetting) (hq : s.commitQueue = comp ++ h :: tail)
    (hnodup : comp.Nodup) (hh : h ∉ comp) (hcomp : ∀ g ∈ comp, (s.group g).CompletesAtTake) {kind : DrainKind} {step : Step}
    (hstep : (s.group h).takeOutcome = .step kind step) :
    s.takeAll late done = (((s.put (s.afterTakes comp) (h :: tail) (s.takeReports comp) s.due).taken h tail).requestStep h kind
      step).groupTurn late (comp.reverse ++ done) := by
  have hchain := takeChain_completing late (h :: tail) comp s done (tail.length + 1) he hmode hq hnodup hcomp
  rw [takeAll, hq, List.length_append, List.length_cons, hchain]
  have hsame : (s.put (s.afterTakes comp) (h :: tail) (s.takeReports comp) s.due).group h = s.group h := by
    rw [put_group, afterTakes, if_neg hh]
  have hcan : (s.put (s.afterTakes comp) (h :: tail) (s.takeReports comp) s.due).canTake = true := by
    simp [canTake, put, he, hmode]
  obtain ⟨hno, -⟩ | ⟨h', tail', -, hq', ⟨kind', step', hstep', heq⟩ | ⟨hdone, -⟩⟩ :=
    (s.put (s.afterTakes comp) (h :: tail) (s.takeReports comp) s.due).takeChain_succ_cases late (comp.reverse ++ done) tail.length
  · exact nomatch hcan.symm.trans hno
  · obtain ⟨rfl, rfl⟩ := List.cons.inj (show h :: tail = h' :: tail' from hq')
    rw [hsame] at hstep'
    obtain ⟨rfl, rfl⟩ := TakeOutcome.step.inj (hstep.symm.trans hstep')
    exact heq
  · obtain ⟨rfl, rfl⟩ := List.cons.inj (show h :: tail = h' :: tail' from hq')
    rw [hsame] at hdone
    exact nomatch hstep.symm.trans hdone

end State
end Sys2Proof.Machine
end

section
/-! PROOF. The takes of one happening in ACTIVE, and what follows them at once (R58, R62). -/

namespace Sys2Proof.Machine

/-- A group whose take asks for its first step (R58). -/
def Group.StartsAtTake (x : Group) : Prop :=
  x.progress.begun = false ∧ x.progress.abandonPending = false ∧ ¬ (x.marker = none ∧ x.outgoing = [])

theorem takeOutcome_starts {x : Group} (h : x.StartsAtTake) : ∃ step, x.takeOutcome = .step .epoch step ∧
    (∀ m, x.marker = some m → step = .start) ∧ (∀ e tail, x.outgoing = e :: tail → x.marker = none → step = .entry) := by
  obtain ⟨hb, ha, hne⟩ := h
  cases hm : x.marker with
  | some m => exact ⟨.start, takeOutcome_first_start ha hb hm, fun _ _ => rfl, fun _ _ _ hn => nomatch hn⟩
  | none =>
    cases ho : x.outgoing with
    | nil => exact absurd ⟨hm, ho⟩ hne
    | cons e tail => exact ⟨.entry, takeOutcome_first_entry ha hb hm ho, (fun _ hn => nomatch hn), fun _ _ _ _ => rfl⟩

namespace State
variable {s a t w : State}

/-- The IDLE engine takes group `h` of fields `z`, its request in its place (R58, R59). -/
theorem takesUp_of_follows (hfollows : w.Follows t) {h : GroupNum} {z : Group} {now : Time} {step : Step} {st : Status} {r : Request}
    (hgroup : w.group h = z.takenAt now) (hengine : w.engine = some { group := h, kind := .epoch, step := step, status := st })
    (hplace : w.arbiter.drainPlace = some r) (hr : r = z.stepRequest .epoch step)
    (hstart : ∀ m, z.marker = some m → step = .start)
    (hentry : ∀ e tail, z.outgoing = e :: tail → z.marker = none → step = .entry) : t.takesUp h z now := by
  obtain ⟨st', hst⟩ := hfollows.engine _ hengine
  have hasks : t.asks .drain r := hfollows.drain r (.inl hplace)
  refine ⟨(hfollows.group h).trans hgroup, fun m hm => ?_, fun e tail ho hm => ?_⟩
  · obtain rfl := hstart m hm
    rw [stepRequest_start hm] at hr
    exact ⟨⟨st', hst⟩, hr ▸ hasks⟩
  · obtain rfl := hentry e tail ho hm
    rw [stepRequest_entry ho] at hr
    exact ⟨⟨st', hst⟩, hr ▸ hasks⟩

/-- The takes of one happening in ACTIVE: the groups `comp` complete at their takes, the head of `rest` is taken with a step to ask
for, and the groups of `comp` and of `done` take their return states. -/
structure TakesDone (s : State) (late : Option (GroupNum × RecordBody)) (done comp rest : List GroupNum) (w : State) : Prop where
  returned : ∀ g, g ∈ comp ∨ g ∈ done → w.group g = (s.afterTakes comp g).onReturn s.time
  others : ∀ g, g ∉ comp → g ∉ done → rest.head? ≠ some g → w.group g = s.group g
  queue : w.commitQueue = rest.tail
  idle : rest = [] → w.engine = none
  next : ∀ h tail, rest = h :: tail → w.group h = (s.group h).takenAt s.time ∧
    ∃ step, (∀ m, (s.group h).marker = some m → step = .start) ∧
      (∀ e tail, (s.group h).outgoing = e :: tail → (s.group h).marker = none → step = .entry) ∧
      w.engine = some { group := h, kind := .epoch, step := step, status := .requested } ∧
      w.arbiter.drainPlace = some ((s.group h).stepRequest .epoch step)
  records : w.records = (s.takeReports comp ++ allGroups.flatMap (fun g => lateAt late g ++
    if g ∈ comp ∨ g ∈ done then jumpReport g s.time ((s.afterTakes comp g).returnSkips s.time) else [])).foldl
      RecordUnit.handOver s.records
  ended : w.canTake = false

theorem stepRequest_takenAt (x : Group) (now : Time) (step : Step) :
    (x.takenAt now).stepRequest .epoch step = x.stepRequest .epoch step := by
  cases step <;> rfl

theorem turnReports_eq {u : State} (late : Option (GroupNum × RecordBody)) {done : List GroupNum} {x : GroupNum → Group}
    {p : GroupNum → Prop} [DecidablePred p] (htime : u.time = s.time) (hmem : ∀ g, g ∈ done ↔ p g) (hx : ∀ g, p g → u.group g = x g) :
    allGroups.flatMap (u.turnReports late done) =
      allGroups.flatMap (fun g => lateAt late g ++ if p g then jumpReport g s.time ((x g).returnSkips s.time) else []) := by
  refine List.flatMap_congr fun g _ => ?_
  rw [turnReports, htime]
  by_cases hg : p g
  · rw [if_pos hg, if_pos ((hmem g).mpr hg), hx g hg]
  · rw [if_neg hg, if_neg (fun hm => hg ((hmem g).mp hm))]

theorem takesDone_takeAll (late : Option (GroupNum × RecordBody)) {done comp rest : List GroupNum} (he : s.engine = none)
    (hmode : s.mode = .active) (hq : s.commitQueue = comp ++ rest) (hnodup : comp.Nodup) (hhead : ∀ h ∈ rest.head?, h ∉ comp)
    (hcomp : ∀ g ∈ comp, (s.group g).CompletesAtTake) (hrest : ∀ g ∈ rest.head?, g ∉ done ∧ (s.group g).StartsAtTake) :
    TakesDone s late done comp rest (s.takeAll late done) := by
  have hnot : s.mode ≠ .resetting := by rw [hmode]; decide
  have hmem : ∀ g, g ∈ comp.reverse ++ done ↔ g ∈ comp ∨ g ∈ done := fun g => by rw [List.mem_append, List.mem_reverse]
  cases rest with
  | nil =>
    rw [List.append_nil] at hq
    have hturn := groupTurn_eq (s := s.put (s.afterTakes comp) [] (s.takeReports comp) s.due) late (comp.reverse ++ done) (.inl hmode)
    rw [takeChain_of_completing late done he hnot hq hnodup hcomp, hturn, put_put]
    refine ⟨fun g hg => ?_, fun g hc hd _ => ?_, rfl, fun _ => he, (fun _ _ h => nomatch h), ?_,
      (canTake_eq_false_iff _).mpr (.inr (.inl rfl))⟩
    · rw [put_group, afterTurn, if_pos ((hmem g).mpr hg), put_group]
      rfl
    · rw [put_group, afterTurn, if_neg (fun hm => ((hmem g).mp hm).elim hc hd), put_group, afterTakes, if_neg hc]
    · rw [turnReports_eq (s := s) (u := s.put (s.afterTakes comp) [] (s.takeReports comp) s.due) (x := s.afterTakes comp) late rfl hmem
        (fun g _ => put_group _ _ _ _ g)]
      rfl
  | cons h tail =>
    obtain ⟨hdone, hstarts⟩ := hrest h rfl
    obtain ⟨step, hout, hstart, hentry⟩ := takeOutcome_starts hstarts
    have hh : h ∉ comp := hhead h rfl
    have hbefore : (s.put (s.afterTakes comp) (h :: tail) (s.takeReports comp) s.due).group h = s.group h := by
      rw [put_group, afterTakes, if_neg hh]
    let u := ((s.put (s.afterTakes comp) (h :: tail) (s.takeReports comp) s.due).taken h tail).requestStep h .epoch step
    have hself : u.group h = (s.group h).takenAt s.time := by
      show ((s.put (s.afterTakes comp) (h :: tail) (s.takeReports comp) s.due).taken h tail).group h = _
      rw [taken_eq (by rw [hbefore]; exact hstarts.1), update, put_group, Function.update_self, hbefore]
      rfl
    have hother : ∀ g, g ≠ h → u.group g = s.afterTakes comp g := fun g hg => by
      show ((s.put (s.afterTakes comp) (h :: tail) (s.takeReports comp) s.due).taken h tail).group g = _
      rw [taken_eq (by rw [hbefore]; exact hstarts.1), update, put_group, Function.update_of_ne hg, put_group]
    have hne : ∀ g, g ∈ comp ∨ g ∈ done → g ≠ h := fun g hg he => hg.elim (fun hm => hh (he ▸ hm)) (fun hm => hdone (he ▸ hm))
    have hplace : u.arbiter.drainPlace = some ((s.group h).stepRequest .epoch step) := by
      show some (((s.put (s.afterTakes comp) (h :: tail) (s.takeReports comp) s.due).taken h tail).group h |>.stepRequest .epoch step) = _
      rw [show ((s.put (s.afterTakes comp) (h :: tail) (s.takeReports comp) s.due).taken h tail).group h = u.group h from rfl, hself,
        stepRequest_takenAt]
    have hturn := groupTurn_eq (s := u) late (comp.reverse ++ done) (.inl hmode)
    rw [takeChain_of_step late done he hnot hq hnodup hh hcomp hout, show ((s.put (s.afterTakes comp) (h :: tail) (s.takeReports comp)
      s.due).taken h tail).requestStep h .epoch step = u from rfl, hturn]
    refine ⟨fun g hg => ?_, fun g hc hd hn => ?_, rfl, (fun h => nomatch h), fun i tail' hi => ?_, ?_,
      (canTake_eq_false_iff _).mpr (.inl (fun h => nomatch h))⟩
    · rw [put_group, afterTurn, if_pos ((hmem g).mpr hg), hother g (hne g hg)]
      rfl
    · rw [put_group, afterTurn, if_neg (fun hm => ((hmem g).mp hm).elim hc hd), hother g (fun he => hn (congrArg some he.symm)), afterTakes,
        if_neg hc]
    · obtain ⟨rfl, rfl⟩ := List.cons.inj hi
      refine ⟨?_, step, hstart, hentry, rfl, hplace⟩
      rw [put_group, afterTurn, if_neg (fun hm => ((hmem h).mp hm).elim hh hdone), hself]
    · rw [turnReports_eq (s := s) (u := u) (x := s.afterTakes comp) late rfl hmem (fun g hg => hother g (hne g hg)), List.foldl_append]
      rfl

/-! ## What the takes leave alone, and what follows them -/

/-- What the takes leave alone. -/
structure TakesKeep (s a : State) : Prop where
  run : a.run = s.run
  mode : a.mode = s.mode
  timebase : a.timebase = s.timebase
  windows : a.windows = s.windows
  port : a.port = s.port
  reply : a.reply = s.reply
  link : a.link = s.link

theorem TakesKeep.refl (s : State) : TakesKeep s s := ⟨rfl, rfl, rfl, rfl, rfl, rfl, rfl⟩

theorem TakesKeep.trans (h : TakesKeep s a) (k : TakesKeep a w) : TakesKeep s w :=
  ⟨k.run.trans h.run, k.mode.trans h.mode, k.timebase.trans h.timebase, k.windows.trans h.windows, k.port.trans h.port,
    k.reply.trans h.reply, k.link.trans h.link⟩

theorem takesKeep_groupTurn (s : State) (late : Option (GroupNum × RecordBody)) (done : List GroupNum) :
    TakesKeep s (s.groupTurn late done) := by
  obtain ⟨_, _, _, _, h⟩ := s.groupTableOnly_groupTurn late done
  rw [h]
  exact ⟨rfl, rfl, rfl, rfl, rfl, rfl, rfl⟩

theorem takesKeep_takeChain (late : Option (GroupNum × RecordBody)) (n : Nat) :
    ∀ (s : State) (done : List GroupNum), TakesKeep s (s.takeChain late done n) := by
  induction n with
  | zero => exact fun s done => takesKeep_groupTurn s late done
  | succ n ih =>
    intro s done
    obtain ⟨-, heq⟩ | ⟨g, rest, -, -, ⟨kind, step, -, heq⟩ | ⟨-, heq⟩⟩ := s.takeChain_succ_cases late done n <;> rw [heq]
    · exact takesKeep_groupTurn s late done
    · have hstep : TakesKeep s ((s.taken g rest).requestStep g kind step) := ⟨rfl, rfl, rfl, rfl, rfl, rfl, rfl⟩
      exact hstep.trans (takesKeep_groupTurn _ late done)
    · have hdone : TakesKeep s ((s.taken g rest).finishEpoch g) := by
        rw [finishEpoch_eq]
        exact ⟨rfl, rfl, rfl, rfl, rfl, rfl, rfl⟩
      exact hdone.trans (ih _ _)

theorem takesKeep_takeNext (s : State) : TakesKeep s s.takeNext :=
  (takesKeep_takeChain none s.commitQueue.length s []).trans (takesKeep_takeChain none _ _ [])

/-- Settling begins with the takes, and they leave none due. -/
theorem settle_takeNext (before : State) : before.settle a = before.settle a.takeNext := by
  rw [settle, settle, takeNext_of_not_canTake a.takeNext a.canTake_takeNext]

/-- In ACTIVE nothing but a record begun and a grant follows the takes. -/
theorem follows_takeNext (before : State) (hmode : a.mode = .active) : a.takeNext.Follows (before.settle a) := by
  have hm : a.takeNext.mode = .active := (takesKeep_takeNext a).mode.trans hmode
  obtain ⟨hflush, hreset⟩ := notDone_of_active hm
  rw [settle_takeNext]
  exact follows_settle before a.canTake_takeNext hflush hreset

theorem takeNext_of_takeAll (h : (a.takeAll none []).canTake = false) : a.takeNext = a.takeAll none [] := by
  rw [takeNext, takeAll_of_not_canTake _ h]

theorem queue_nil_of_idle (hs : NothingDue s) (hmode : s.mode ≠ .resetting) (he : s.engine = none) : s.commitQueue = [] := by
  rcases (canTake_eq_false_iff s).mp hs.1 with h | h | h
  · exact absurd he h
  · exact h
  · exact absurd h hmode

/-- What the takes of a happening of the timebase leave, group by group (R58). -/
theorem takesDone_timebase {v : GroupNum → Group} {done rest : List GroupNum} (hmode : a.mode = .active) (he : a.engine = none)
    (hgroups : ∀ g, a.group g = v g) (hq : a.commitQueue = done ++ rest) (hnodup : (done ++ rest).Nodup)
    (hdone : ∀ g ∈ done, (v g).CompletesAtTake) (hrest : ∀ h ∈ rest.head?, (v h).StartsAtTake) :
    TakesDone a none [] done rest a.takeNext := by
  have hhead : ∀ h ∈ rest.head?, h ∉ done := fun h hh hm => by
    obtain ⟨tail, rfl⟩ := List.head?_eq_some_iff.mp hh
    exact (List.nodup_append.mp hnodup).2.2 h hm h List.mem_cons_self rfl
  have h := takesDone_takeAll (s := a) none (done := []) he hmode hq (List.nodup_append.mp hnodup).1 hhead (fun g hg => by rw [hgroups]; exact hdone g hg)
    (fun g hg => ⟨List.not_mem_nil, by rw [hgroups]; exact hrest g hg⟩)
  rw [takeNext_of_takeAll h.ended]
  exact h

/-- A group whose epoch completes at its take skips no instant where its seal point does not lie behind. -/
theorem returnSkips_taken (x : Group) (now : Time) : ((x.takenAt now).epochDone).returnSkips now = x.returnSkips now := rfl

theorem flatMap_nil_of {f : GroupNum → List RecordBody} (h : ∀ g, f g = []) : allGroups.flatMap f = [] :=
  List.flatMap_eq_nil_iff.mpr fun g _ => h g

/-- An event of the timebase that gives the groups the fields `v` and queues those newly QUEUED, in ascending number. -/
theorem queueFollows_of_event {v : GroupNum → Group} {now : Time} {bs : List RecordBody} (hs : NothingDue s) (hmode : s.mode = .active)
    (hamode : a.mode = .active) (htime : a.time = now) (he : a.engine = s.engine) (hgroups : ∀ g, a.group g = v g)
    (hq : a.commitQueue = s.commitQueue ++ allGroups.filter (fun g => (s.group g).state != .queued && (v g).state == .queued))
    (hrecords : a.records = bs.foldl RecordUnit.handOver s.records)
    (hskips : ∀ g, (s.group g).state ≠ .queued → (v g).state = .queued →
      ((v g).trigger = .periodic → (v g).guardTicks.toNat < (v g).period.toNat) → (v g).returnSkips now = 0) :
    QueueFollows s (s.settle a) v now bs := by
  have hfollows := follows_takeNext (a := a) s hamode
  have hmodes : s.mode ≠ .resetting := by rw [hmode]; decide
  refine ⟨fun hbusy => ?_, fun hidle done rest hsplit hdone hrest => ?_⟩
  · have hcan : a.canTake = false := (canTake_eq_false_iff a).mpr (.inl (by rw [he]; exact hbusy))
    rw [takeNext_of_not_canTake a hcan] at hfollows
    exact ⟨fun g => (hfollows.group g).trans (hgroups g), hfollows.commitQueue.trans hq,
      hfollows.reports ⟨congrArg RecordUnit.queue hrecords, congrArg RecordUnit.lostCount hrecords⟩⟩
  · rw [queue_nil_of_idle hs hmodes hidle, List.nil_append, hsplit] at hq
    have hnodup : (done ++ rest).Nodup := hsplit ▸ nodup_allGroups.filter _
    have hqueued : ∀ g ∈ done, (s.group g).state ≠ .queued ∧ (v g).state = .queued := fun g hg => by
      have hm : g ∈ done ++ rest := List.mem_append_left _ hg
      rw [← hsplit] at hm
      simpa using (List.mem_filter.mp hm).2
    have hcompletes : ∀ g ∈ done, (v g).CompletesAtTake := fun g hg => by
      obtain ⟨⟨hb, ha⟩, ⟨hm, ho⟩, -⟩ := hdone g hg
      exact ⟨hb, ha, hm, ho⟩
    have hstarts : ∀ h ∈ rest.head?, (v h).StartsAtTake := fun h hh => by
      obtain ⟨tail, rfl⟩ := List.head?_eq_some_iff.mp hh
      obtain ⟨⟨hb, ha⟩, hne⟩ := hrest h tail rfl
      exact ⟨hb, ha, hne⟩
    have htakes := takesDone_timebase hamode (he.trans hidle) hgroups hq hnodup hcompletes hstarts
    have hafter : ∀ g ∈ done, a.afterTakes done g = ((v g).takenAt now).epochDone := fun g hg => by
      rw [afterTakes, if_pos hg, hgroups, htime]
    have hzero : ∀ g ∈ done, (((v g).takenAt now).epochDone).returnSkips now = 0 := fun g hg => by
      obtain ⟨hold, hnew⟩ := hqueued g hg
      obtain ⟨-, -, hguard⟩ := hdone g hg
      rw [returnSkips_taken]
      exact hskips g hold hnew hguard
    refine ⟨fun g hg => ?_, fun h tail hr => ?_, fun hr => hfollows.idle (htakes.idle hr), fun g hg hn => ?_, ?_, ?_⟩
    · have hreturn := returned_onReturn now (((v g).takenAt now).epochDone)
      rw [hzero g hg] at hreturn
      rw [hfollows.group, htakes.returned g (.inl hg), hafter g hg, htime]
      exact hreturn
    · obtain ⟨hgroup, step, hstart, hentry, hengine, hplace⟩ := htakes.next h tail hr
      rw [hgroups, htime] at hgroup
      rw [hgroups] at hstart hentry hplace
      exact takesUp_of_follows hfollows hgroup hengine hplace rfl hstart hentry
    · rw [hfollows.group, htakes.others g hg List.not_mem_nil hn, hgroups]
    · rw [hfollows.commitQueue, htakes.queue]
    · have hjumps : allGroups.flatMap (fun g => lateAt none g ++ if g ∈ done ∨ g ∈ ([] : List GroupNum) then
          jumpReport g a.time ((a.afterTakes done g).returnSkips a.time) else []) = [] := by
        refine flatMap_nil_of fun g => ?_
        by_cases hg : g ∈ done
        · rw [if_pos (.inl hg), hafter g hg, htime, hzero g hg]
          rfl
        · rw [if_neg (by simp [hg])]
          rfl
      have hends : a.takeReports done = done.flatMap (fun g => ((v g).takenAt now).doneReport g 0 now) := by
        rw [takeReports, htime]
        exact List.flatMap_congr fun g _ => by rw [hgroups]
      have hr := htakes.records
      rw [hjumps, List.append_nil, hends, hrecords, ← List.foldl_append] at hr
      exact hfollows.reports ⟨congrArg RecordUnit.queue hr, congrArg RecordUnit.lostCount hr⟩

end State
end Sys2Proof.Machine
end

section
/-! PROOF. The points a tick or a SYNC edge reaches (O27 to O30). -/

namespace Sys2Proof.Machine

/-! ## A group at its points (R32 to R34, R37) -/

/-- A group that seals at `now` (R33). -/
def Group.sealedAt (x : Group) (now : Time) : Group :=
  { x with state := .sealed, sealTime := now, outgoing := x.filling, filling := [] }

/-- The group overruns at its seal point (R37). -/
def Group.overrunsAtSeal (x : Group) : Bool := x.state.busy && x.returnState == .armed

/-- A group whose seal point is reached (R32). -/
def Group.atSealPoint (x : Group) (now : Time) : Group :=
  if x.state = .armed then x.sealedAt now
  else if x.overrunsAtSeal = true then ({ x with overrunCount := satAdd x.overrunCount 1 } : Group).skipInstant
  else x

/-- A group at its marked points: `sealDue` its seal point, `commitDue` its commit instant (R32). -/
def Group.atPoints (x : Group) (now : Time) (sealDue commitDue : Bool) : Group :=
  let y := if sealDue = true then x.atSealPoint now else x
  if commitDue = true ∧ y.state = .sealed then y.committed now else y

/-- The group enters the commit queue at its marked points. -/
def Group.queuesAtPoints (x : Group) (now : Time) (sealDue commitDue : Bool) : Bool :=
  commitDue && (if sealDue = true then x.atSealPoint now else x).state == .sealed

/-- The record of a group that overruns at its seal point (R37). -/
def Group.pointReport (x : Group) (g : GroupNum) (now : Time) (sealDue : Bool) : List RecordBody :=
  if sealDue = true ∧ x.overrunsAtSeal = true then [.overrun g now .busy 1] else []

/-- The marks of a group taken up. -/
def Due.takenUp (d : Due) (g : GroupNum) : Due :=
  { d with sealPoint := d.sealPoint.set g false, commitInstant := d.commitInstant.set g false }

theorem Table8.set_get_self {α : Type} (t : Table8 α) (i : Fin 8) : t.set i (t.get i) = t :=
  Table8.ext_get fun j => by
    rw [Table8.get_set]
    split
    · next h => rw [h]
    · rfl

namespace State
variable {s a : State}

/-- What reaching a seal point does, as one new entry and its record (R32, R37). -/
theorem reachSealPoint_eq (g : GroupNum) :
    s.reachSealPoint g = s.update g ((s.group g).atSealPoint s.time) s.commitQueue ((s.group g).pointReport g s.time true) s.due := by
  have harmed_no : (s.group g).state = .armed → (s.group g).overrunsAtSeal = false := fun h => by
    simp [Group.overrunsAtSeal, GroupState.busy, h]
  by_cases hover : (s.group g).overrunsAtSeal = true
  · have hreach : s.reachSealPoint g = (s.countOverrun g .busy 1).modifyGroup g Group.skipInstant := by
      unfold reachSealPoint
      unfold Group.overrunsAtSeal at hover
      cases hst : (s.group g).state <;> simp_all [GroupState.busy]
    have hne : ¬ (s.group g).state = .armed := fun h => nomatch (harmed_no h).symm.trans hover
    rw [hreach, Group.atSealPoint, if_neg hne, if_pos hover, Group.pointReport, if_pos ⟨rfl, hover⟩, update_eq, countOverrun_eq,
      modifyGroup_eq]
    simp only [setGroup, group, Table8.get_set_self, Table8.set_set]
    rfl
  · have hreport : (s.group g).pointReport g s.time true = [] := if_neg (fun h => hover h.2)
    rw [hreport]
    by_cases harmed : (s.group g).state = .armed
    · have hreach : s.reachSealPoint g = s.sealGroup g := by
        simp only [reachSealPoint, harmed]
      rw [hreach, Group.atSealPoint, if_pos harmed, update_eq, sealGroup_eq]
      rfl
    · have hreach : s.reachSealPoint g = s := by
        unfold reachSealPoint
        unfold Group.overrunsAtSeal at hover
        cases hst : (s.group g).state <;> simp_all [GroupState.busy]
      rw [hreach, Group.atSealPoint, if_neg harmed, if_neg hover, update_self]

theorem update_mark (g : GroupNum) (d : Due) : s.setDue d = s.update g (s.group g) s.commitQueue [] d := by
  have h : Table8.tabulate s.group = s.groups := Table8.tabulate_get s.groups
  rw [update, Function.update_eq_self, put, h]
  rfl

/-- A marked commit instant taken up (R34). -/
theorem takeUpCommit_eq (g : GroupNum) :
    s.takeUpCommit g = s.update g ((s.group g).atPoints s.time false (s.due.commitInstant.get g))
      (s.commitQueue ++ if (s.group g).queuesAtPoints s.time false (s.due.commitInstant.get g) = true then [g] else []) []
      { s.due with commitInstant := s.due.commitInstant.set g false } := by
  unfold takeUpCommit
  cases hm : s.due.commitInstant.get g with
  | false =>
    have hd : s.due.commitInstant.set g false = s.due.commitInstant := by rw [← hm, Table8.set_get_self]
    rw [if_neg (by decide), hd]
    have h := s.update_self g
    simpa [Group.atPoints, Group.queuesAtPoints] using h.symm
  | true =>
    rw [if_pos rfl, reachCommitInstant]
    by_cases hst : (s.group g).state = .sealed
    · rw [if_pos (by exact hst), commitGroup_eq, update_eq]
      simp [Group.atPoints, Group.queuesAtPoints, hst, enqueue, setGroup, setDue]
      rfl
    · rw [if_neg (by exact hst), update_mark g]
      simp [Group.atPoints, Group.queuesAtPoints, hst]

/-- A marked seal point taken up, with the commit instant of the same event (R33). -/
theorem takeUpSeal_eq (g : GroupNum) (hm : s.due.sealPoint.get g = true) :
    s.takeUpSeal g = s.update g ((s.group g).atPoints s.time true (s.due.commitInstant.get g))
      (s.commitQueue ++ if (s.group g).queuesAtPoints s.time true (s.due.commitInstant.get g) = true then [g] else [])
      ((s.group g).pointReport g s.time true) (s.due.takenUp g) := by
  let d : Due := { s.due with sealPoint := s.due.sealPoint.set g false }
  let u := s.update g ((s.group g).atSealPoint s.time) s.commitQueue ((s.group g).pointReport g s.time true) d
  have hreach : (s.setDue d).reachSealPoint g = u := by
    rw [reachSealPoint_eq]
    rfl
  have hself : u.group g = (s.group g).atSealPoint s.time := by
    rw [show u = s.update g _ _ _ _ from rfl, update, put_group, Function.update_self]
  have hcommit := takeUpCommit_eq (s := u) g
  rw [hself] at hcommit
  rw [takeUpSeal, if_pos hm]
  show ((s.setDue d).reachSealPoint g).takeUpCommit g = _
  rw [hreach, hcommit]
  refine (update_update g _ _ _ _ _ _ d _).trans ?_
  rw [List.append_nil]
  rfl

theorem takeUpSeal_of_no_mark {g : GroupNum} (hm : s.due.sealPoint.get g = false) : s.takeUpSeal g = s := by
  rw [takeUpSeal, if_neg (by rw [hm]; decide)]

/-- The marked points of one group taken up. -/
theorem takeUpGroup_eq (g : GroupNum) :
    (s.takeUpSeal g).takeUpCommit g =
      s.update g ((s.group g).atPoints s.time (s.due.sealPoint.get g) (s.due.commitInstant.get g))
        (s.commitQueue ++
          if (s.group g).queuesAtPoints s.time (s.due.sealPoint.get g) (s.due.commitInstant.get g) = true then [g] else [])
        ((s.group g).pointReport g s.time (s.due.sealPoint.get g)) (s.due.takenUp g) := by
  cases hm : s.due.sealPoint.get g with
  | false =>
    have hd : s.due.sealPoint.set g false = s.due.sealPoint := by rw [← hm, Table8.set_get_self]
    rw [takeUpSeal_of_no_mark hm, takeUpCommit_eq, Due.takenUp, hd]
    rfl
  | true =>
    rw [takeUpSeal_eq g hm]
    exact if_neg (by rw [update, put_due, Due.takenUp, Table8.get_set_self]; decide)

/-- The groups after their marked points. -/
def pointGroups (s : State) (g : GroupNum) : Group :=
  (s.group g).atPoints s.time (s.due.sealPoint.get g) (s.due.commitInstant.get g)

/-- The records of the marked points, in ascending group number. -/
def pointReports (s : State) : List RecordBody :=
  allGroups.flatMap (fun g => (s.group g).pointReport g s.time (s.due.sealPoint.get g))

/-- Every marked point taken up, in ascending group number (R142). -/
theorem takeUpPoints_eq (s : State) :
    s.takeUpPoints = s.put s.pointGroups
      (s.commitQueue ++ allGroups.filter (fun g =>
        (s.group g).queuesAtPoints s.time (s.due.sealPoint.get g) (s.due.commitInstant.get g)))
      s.pointReports (allGroups.foldl Due.takenUp s.due) := by
  have hmark : ∀ (d : Due) (g h : GroupNum), h ≠ g → (d.takenUp g).marksAt h = d.marksAt h := fun d g h hne => by
    simp [Due.marksAt, Due.takenUp, Table8.get_set_ne _ _ hne]
  have hpass := foldl_pass (fun g acc => (acc.takeUpSeal g).takeUpCommit g) Due.takenUp s.pointGroups
    (fun g => (s.group g).queuesAtPoints s.time (s.due.sealPoint.get g) (s.due.commitInstant.get g))
    (fun g => (s.group g).pointReport g s.time (s.due.sealPoint.get g)) hmark allGroups s nodup_allGroups ?_
  · simp only [mem_allGroups, if_true] at hpass
    exact hpass
  · intro g _ b hb
    obtain ⟨hseal, hcommit⟩ := Prod.mk.inj hb.marks
    rw [takeUpGroup_eq, hb.group, hb.time, hseal, hcommit]
    rfl

end State

theorem exec_sealPointReached {s : State} (hrun : s.run = .running) (g : GroupNum) :
    exec (.sealPointReached g) s = .next (s.settle (if s.mode = .active then s.takeUpSeal g else s)) :=
  happening_of_running hrun (fun a => if a.mode = .active then a.takeUpSeal g else a)

theorem exec_commitInstantReached {s : State} (hrun : s.run = .running) (g : GroupNum) :
    exec (.commitInstantReached g) s = .next (s.settle (if s.mode = .active then s.takeUpCommit g else s)) :=
  happening_of_running hrun (fun a => if a.mode = .active then a.takeUpCommit g else a)

/-- With the engine BUSY nothing follows a change of the groups, the queue and the marks. -/
theorem State.Settled.of_busy_engine {s t : State} (h : Settled s) (hengine : s.engine ≠ none)
    (he : t.engine = s.engine) (hm : t.mode = s.mode) (ha : t.arbiter = s.arbiter) (hr : t.records = s.records)
    (hirq : t.irq = s.irq) (hl : t.link = s.link) : Settled t := by
  obtain ⟨⟨-, -, hreset, hrecord, hgrant⟩, hline⟩ := h
  obtain ⟨c, hc⟩ := Option.ne_none_iff_exists'.mp hengine
  refine ⟨⟨(State.canTake_eq_false_iff t).mpr (.inl (by rw [he]; exact hengine)), by simp [State.flushDone, he, hc], ?_, ?_, ?_⟩, ?_⟩
  · simpa only [State.softResetDone, hm, ha] using hreset
  · simpa only [State.canBeginRecord, hr, hm] using hrecord
  · simpa only [State.canGrant, ha, hm] using hgrant
  · rw [hirq, hr, hl]
    exact hline

/-- Settles O29. -/
theorem duePointsAreTakenUp : Obligations.DuePointsAreTakenUp := by
  intro s g hs hrun hengine
  refine ⟨fun h => ?_, fun h => ?_, fun hmode hseal hcommit hst => ?_, fun hmode hcommit hst htrigger => ?_⟩
  · have hsame : (if s.mode = .active then s.takeUpSeal g else s) = s := by
      split
      · next hmode => exact State.takeUpSeal_of_no_mark (h.resolve_left (fun hn => hn hmode))
      · rfl
    rw [exec_sealPointReached hrun, hsame, State.settle_of_settled _ _ hs]
  · have hsame : (if s.mode = .active then s.takeUpCommit g else s) = s := by
      split
      · next hmode =>
        have hm := h.resolve_left (fun hn => hn hmode)
        rw [State.takeUpCommit, if_neg (by rw [hm]; decide)]
      · rfl
    rw [exec_commitInstantReached hrun, hsame, State.settle_of_settled _ _ hs]
  · have hover : (s.group g).overrunsAtSeal = false := by simp [Group.overrunsAtSeal, GroupState.busy, hst]
    have heq : s.takeUpSeal g = { s with
        due := { s.due with sealPoint := s.due.sealPoint.set g false }
        groups := s.groups.set g { s.group g with
          state := .sealed, sealTime := s.time, outgoing := (s.group g).filling, filling := [] } } := by
      have hd : s.due.commitInstant.set g false = s.due.commitInstant := by rw [← hcommit, Table8.set_get_self]
      rw [State.takeUpSeal_eq g hseal, State.update_eq, Due.takenUp, hd, hcommit]
      simp [Group.atPoints, Group.queuesAtPoints, Group.pointReport, Group.atSealPoint, hst, hover, Group.sealedAt]
    rw [exec_sealPointReached hrun, if_pos hmode, heq]
    exact congrArg _ (State.settle_of_settled _ _ (State.Settled.of_busy_engine hs hengine rfl rfl rfl rfl rfl rfl))
  · have heq : s.takeUpCommit g = { s with
        due := { s.due with commitInstant := s.due.commitInstant.set g false }
        commitQueue := s.commitQueue ++ [g]
        groups := s.groups.set g { s.group g with
          state := .queued, epochInstant := s.time, nextInstant := none, returnState := .armed } } := by
      rw [State.takeUpCommit_eq, State.update_eq, hcommit]
      simp [Group.atPoints, Group.queuesAtPoints, hst, Group.committed, htrigger]
    rw [exec_commitInstantReached hrun, if_pos hmode, heq]
    exact congrArg _ (State.settle_of_settled _ _ (State.Settled.of_busy_engine hs hengine rfl rfl rfl rfl rfl rfl))

end Sys2Proof.Machine
end

section
/-! PROOF. The tick and the SYNC edge (O27, O28, O30). -/

namespace Sys2Proof.Machine

/-! ## A group at the points of one event -/

theorem Group.skipInstant_state (x : Group) : x.skipInstant.state = x.state := by
  unfold Group.skipInstant
  split <;> rfl

theorem Group.atSealPoint_state (x : Group) (now : Time) :
    (x.atSealPoint now).state = if x.state = .armed then .sealed else x.state := by
  unfold Group.atSealPoint
  split
  · rfl
  · split
    · exact Group.skipInstant_state _
    · rfl

theorem Group.committed_state (x : Group) (now : Time) : (x.committed now).state = .queued := by
  unfold Group.committed
  split <;> rfl

theorem Group.atPoints_none (x : Group) (now : Time) : x.atPoints now false false = x := by simp [Group.atPoints]

/-- A group enters the queue at its points exactly where it becomes QUEUED at them. -/
theorem Group.queuesAtPoints_eq (x : Group) (now : Time) (sealDue commitDue : Bool) :
    x.queuesAtPoints now sealDue commitDue = (x.state != .queued && (x.atPoints now sealDue commitDue).state == .queued) := by
  have hseal : (if sealDue = true then x.atSealPoint now else x).state = if sealDue = true ∧ x.state = .armed then .sealed else x.state := by
    cases sealDue
    · simp
    · simpa using x.atSealPoint_state now
  unfold Group.queuesAtPoints Group.atPoints
  dsimp only
  generalize (if sealDue = true then x.atSealPoint now else x) = y at hseal
  by_cases hc : commitDue = true ∧ y.state = .sealed
  · obtain ⟨rfl, hy⟩ := hc
    have hx : x.state ≠ .queued := fun hx => by
      rw [hy, hx] at hseal
      simp at hseal
    rw [if_pos ⟨rfl, hy⟩, Group.committed_state, hy]
    simp [hx]
  · rw [if_neg hc, hseal]
    have hleft : (commitDue && y.state == .sealed) = false := by
      cases commitDue
      · rfl
      · simpa using hc
    rw [hseal] at hleft
    rw [hleft]
    split
    · next h => simp
    · cases x.state <;> rfl

/-- A commit instant taken up leaves no seal point behind (R32, R40). -/
theorem returnSkips_committed {y : Group} {now : Time} (hnext : y.trigger = .periodic → y.nextInstant = some now)
    (hguard : y.trigger = .periodic → y.guardTicks.toNat < y.period.toNat) : (y.committed now).returnSkips now = 0 := by
  cases ht : y.trigger with
  | oneshot => simp [Group.committed, ht, Group.returnSkips]
  | cycle => simp [Group.committed, ht, Group.returnSkips]
  | manual => simp [Group.committed, ht, Group.returnSkips]
  | periodic =>
    have hbehind : atOrBefore now (now + y.period.setWidth 48 - y.guardTicks.setWidth 48) = false := by
      have hg := hguard ht
      have hp := y.period.isLt
      have hsub : now - (now + y.period.setWidth 48 - y.guardTicks.setWidth 48) =
          BitVec.setWidth 48 y.guardTicks - BitVec.setWidth 48 y.period := by ring
      unfold atOrBefore distance
      rw [hsub, decide_eq_false_iff_not, BitVec.toNat_sub, BitVec.toNat_setWidth, BitVec.toNat_setWidth]
      omega
    simp [Group.committed, ht, Group.returnSkips, hnext ht, Group.passedAtReturn, Group.sealPointOf, hbehind]

namespace State
variable {s a : State}

/-! ## The points an event reaches (R32, R75, R88) -/

/-- The event reaches the seal point of group `g`. -/
def sealMark (s : State) (timeMoved posMoved : Bool) (g : GroupNum) : Bool :=
  s.mode == .active && (s.group g).sealPointReachedAt s.time s.timebase.cyclePosition timeMoved posMoved

/-- The event reaches the commit instant of group `g`. -/
def commitMark (s : State) (timeMoved posMoved : Bool) (g : GroupNum) : Bool :=
  s.mode == .active && (s.group g).commitInstantReachedAt s.time s.timebase.cyclePosition timeMoved posMoved

/-- The groups after the points the event reaches. -/
def reached (s : State) (timeMoved posMoved : Bool) (g : GroupNum) : Group :=
  (s.group g).atPoints s.time (s.sealMark timeMoved posMoved g) (s.commitMark timeMoved posMoved g)

/-- The groups that overrun at the event, in ascending number. -/
def overruns (s : State) (timeMoved posMoved : Bool) : List GroupNum :=
  allGroups.filter (fun g => s.sealMark timeMoved posMoved g && (s.group g).overrunsAtSeal)

/-- The groups the event queues, in ascending number. -/
def queuedNow (s : State) (v : GroupNum → Group) : List GroupNum :=
  allGroups.filter (fun g => (s.group g).state != .queued && (v g).state == .queued)

theorem markPoints_sealPoint (timeMoved posMoved : Bool) (g : GroupNum) :
    (s.markPoints timeMoved posMoved).due.sealPoint.get g = s.sealMark timeMoved posMoved g := by
  by_cases hmode : s.mode = .active
  · simp [markPoints, hmode, sealMark, setDue, group]
  · simp [markPoints, hmode, sealMark, setDue]

theorem markPoints_commitInstant (timeMoved posMoved : Bool) (g : GroupNum) :
    (s.markPoints timeMoved posMoved).due.commitInstant.get g = s.commitMark timeMoved posMoved g := by
  by_cases hmode : s.mode = .active
  · simp [markPoints, hmode, commitMark, setDue, group]
  · simp [markPoints, hmode, commitMark, setDue]

theorem markPoints_eq (timeMoved posMoved : Bool) :
    s.markPoints timeMoved posMoved = s.setDue (s.markPoints timeMoved posMoved).due := by
  by_cases hmode : s.mode = .active
  · simp [markPoints, hmode, setDue]
  · simp [markPoints, hmode, setDue]

theorem flatMap_ite {p : GroupNum → Bool} (b : GroupNum → RecordBody) (l : List GroupNum) :
    l.flatMap (fun g => if p g = true then [b g] else []) = (l.filter p).map b := by
  induction l with
  | nil => rfl
  | cons g l ih =>
    rw [List.flatMap_cons, ih, List.filter_cons]
    split <;> rfl

/-- The points of an event taken up, in ascending group number (R142). -/
theorem takeUpPoints_markPoints (timeMoved posMoved : Bool) :
    (s.markPoints timeMoved posMoved).takeUpPoints = s.put (s.reached timeMoved posMoved)
      (s.commitQueue ++ s.queuedNow (s.reached timeMoved posMoved))
      ((s.overruns timeMoved posMoved).map (fun g => .overrun g s.time .busy 1))
      (allGroups.foldl Due.takenUp (s.markPoints timeMoved posMoved).due) := by
  have hseal := fun g => s.markPoints_sealPoint timeMoved posMoved g
  have hcommit := fun g => s.markPoints_commitInstant timeMoved posMoved g
  have hsame := s.markPoints_eq timeMoved posMoved
  generalize (s.markPoints timeMoved posMoved).due = d at hseal hcommit hsame ⊢
  have hgroups : (s.setDue d).pointGroups = s.reached timeMoved posMoved := funext fun g => by
    rw [reached, ← hseal, ← hcommit]
    rfl
  have hqueued : (fun g => ((s.setDue d).group g).queuesAtPoints (s.setDue d).time ((s.setDue d).due.sealPoint.get g)
      ((s.setDue d).due.commitInstant.get g)) =
      fun g => (s.group g).state != .queued && (s.reached timeMoved posMoved g).state == .queued := funext fun g => by
    rw [reached, ← Group.queuesAtPoints_eq, ← hseal, ← hcommit]
    rfl
  have hreports : (s.setDue d).pointReports = (s.overruns timeMoved posMoved).map (fun g => .overrun g s.time .busy 1) := by
    rw [overruns, ← flatMap_ite]
    refine List.flatMap_congr fun g _ => ?_
    simp only [← hseal, Bool.and_eq_true]
    rfl
  rw [hsame, takeUpPoints_eq, hgroups, hqueued, hreports]
  rfl

theorem foldl_takenUp_hold (l : List GroupNum) (d : Due) : (l.foldl Due.takenUp d).hold = d.hold := by
  induction l generalizing d with
  | nil => rfl
  | cons g l ih => exact ih _

theorem reached_of_no_marks {timeMoved posMoved : Bool} {g : GroupNum} (hs : s.sealMark timeMoved posMoved g = false)
    (hc : s.commitMark timeMoved posMoved g = false) : s.reached timeMoved posMoved g = s.group g := by
  rw [reached, hs, hc, Group.atPoints_none]

theorem reached_of_not_active {timeMoved posMoved : Bool} (hmode : s.mode ≠ .active) : s.reached timeMoved posMoved = s.group :=
  funext fun g => reached_of_no_marks (by simp [sealMark, hmode]) (by simp [commitMark, hmode])

theorem overruns_of_not_active {timeMoved posMoved : Bool} (hmode : s.mode ≠ .active) : s.overruns timeMoved posMoved = [] := by
  simp [overruns, sealMark, hmode]

theorem queuedNow_self (s : State) : s.queuedNow s.group = [] := by
  simp [queuedNow]

/-- What a group newly queued at its commit instant skips at once: nothing (R40). -/
theorem returnSkips_reached {timeMoved posMoved : Bool} {g : GroupNum} (hold : (s.group g).state ≠ .queued)
    (hnew : (s.reached timeMoved posMoved g).state = .queued)
    (hguard : (s.reached timeMoved posMoved g).trigger = .periodic →
      (s.reached timeMoved posMoved g).guardTicks.toNat < (s.reached timeMoved posMoved g).period.toNat) :
    (s.reached timeMoved posMoved g).returnSkips s.time = 0 := by
  have hq : (s.group g).queuesAtPoints s.time (s.sealMark timeMoved posMoved g) (s.commitMark timeMoved posMoved g) = true := by
    rw [Group.queuesAtPoints_eq]
    simp only [Bool.and_eq_true, bne_iff_ne, beq_iff_eq]
    exact ⟨hold, hnew⟩
  obtain ⟨hcommit, hsealed⟩ : s.commitMark timeMoved posMoved g = true ∧
      (if s.sealMark timeMoved posMoved g = true then (s.group g).atSealPoint s.time else s.group g).state = .sealed := by
    simpa [Group.queuesAtPoints] using hq
  have hmark : (s.group g).commitInstantReachedAt s.time s.timebase.cyclePosition timeMoved posMoved = true := by
    simp only [commitMark, Bool.and_eq_true] at hcommit
    exact hcommit.2
  have hperiodic : (s.group g).trigger = .periodic → (s.group g).nextInstant = some s.time := fun ht => by
    simp only [Group.commitInstantReachedAt, ht, Bool.and_eq_true, beq_iff_eq] at hmark
    exact hmark.2
  have hfields : (if s.sealMark timeMoved posMoved g = true then (s.group g).atSealPoint s.time else s.group g) = s.group g ∨
      (if s.sealMark timeMoved posMoved g = true then (s.group g).atSealPoint s.time else s.group g) = (s.group g).sealedAt s.time := by
    by_cases hs : s.sealMark timeMoved posMoved g = true
    · rw [if_pos hs, Group.atSealPoint_state] at hsealed
      rw [if_pos hs, Group.atSealPoint]
      by_cases harmed : (s.group g).state = .armed
      · rw [if_pos harmed]
        exact .inr rfl
      · rw [if_neg harmed] at hsealed
        rw [if_neg harmed, if_neg (by simp [Group.overrunsAtSeal, GroupState.busy, hsealed])]
        exact .inl rfl
    · rw [if_neg hs]
      exact .inl rfl
  have hreached : s.reached timeMoved posMoved g =
      (if s.sealMark timeMoved posMoved g = true then (s.group g).atSealPoint s.time else s.group g).committed s.time := by
    rw [reached, Group.atPoints]
    exact if_pos ⟨hcommit, hsealed⟩
  have htrigger : ∀ (y : Group), (y.committed s.time).trigger = y.trigger ∧ (y.committed s.time).guardTicks = y.guardTicks ∧
      (y.committed s.time).period = y.period := fun y => by
    unfold Group.committed
    split <;> exact ⟨rfl, rfl, rfl⟩
  rw [hreached] at hguard ⊢
  rw [(htrigger _).1, (htrigger _).2.1, (htrigger _).2.2] at hguard
  rcases hfields with h | h <;> rw [h] at hguard ⊢
  · exact returnSkips_committed hperiodic hguard
  · exact returnSkips_committed hperiodic hguard

end State
end Sys2Proof.Machine
end

section
/-! PROOF. The tick (O27, O28) and the SYNC edge (O30). -/

namespace Sys2Proof.Machine

/-! ## A group at its points, by its state -/

namespace Group
variable {x : Group} {now : Time} {sealDue commitDue : Bool}

theorem atPoints_sealed_only (hst : x.state = .armed) (hs : sealDue = true) (hc : commitDue = false) :
    x.atPoints now sealDue commitDue = x.sealedAt now := by
  simp [atPoints, hs, hc, atSealPoint, hst]

theorem atPoints_sealed_committed (hst : x.state = .armed) (hs : sealDue = true) (hc : commitDue = true) :
    x.atPoints now sealDue commitDue = (x.sealedAt now).committed now := by
  simp [atPoints, hs, hc, atSealPoint, hst, sealedAt]

theorem atPoints_committed (hst : x.state = .sealed) (hc : commitDue = true) : x.atPoints now sealDue commitDue = x.committed now := by
  have hover : x.overrunsAtSeal = false := by simp [overrunsAtSeal, GroupState.busy, hst]
  simp [atPoints, hc, atSealPoint, hst, hover]

theorem busy_cases (hb : x.state.busy = true) : x.state ≠ .armed ∧ x.state ≠ .sealed := by
  constructor <;> intro h <;> rw [h] at hb <;> exact nomatch hb

theorem atPoints_overrun (hb : x.state.busy = true) (hr : x.returnState = .armed) (hs : sealDue = true) :
    x.atPoints now sealDue commitDue = ({ x with overrunCount := satAdd x.overrunCount 1 } : Group).skipInstant := by
  obtain ⟨harmed, hsealed⟩ := busy_cases hb
  have hover : x.overrunsAtSeal = true := by simp [overrunsAtSeal, hb, hr]
  have hstate : (({ x with overrunCount := satAdd x.overrunCount 1 } : Group).skipInstant).state ≠ .sealed := by
    rw [skipInstant_state]
    exact hsealed
  simp [atPoints, hs, atSealPoint, harmed, hover, hstate]

theorem atPoints_still (h : (x.state = .off ∨ x.state = .opened) ∨ (x.state = .armed ∧ sealDue = false) ∨
    (x.state = .sealed ∧ commitDue = false) ∨ (x.state.busy = true ∧ ¬ (x.returnState = .armed ∧ sealDue = true))) :
    x.atPoints now sealDue commitDue = x := by
  rcases h with (hst | hst) | ⟨hst, hs⟩ | ⟨hst, hc⟩ | ⟨hb, hnot⟩
  · simp [atPoints, atSealPoint, overrunsAtSeal, GroupState.busy, hst]
  · simp [atPoints, atSealPoint, overrunsAtSeal, GroupState.busy, hst]
  · simp [atPoints, hst, hs]
  · simp [atPoints, atSealPoint, overrunsAtSeal, GroupState.busy, hst, hc]
  · obtain ⟨harmed, hsealed⟩ := busy_cases hb
    cases sealDue
    · simp [atPoints, hsealed]
    · have hr : x.returnState ≠ .armed := fun hr => hnot ⟨hr, rfl⟩
      simp [atPoints, atSealPoint, overrunsAtSeal, harmed, hsealed, hr]

end Group

theorem sealPointReachedAt_iff {x : Group} {t : Time} {p : Nat} {timeMoved posMoved : Bool} :
    x.sealPointReachedAt t p timeMoved posMoved = true ↔
      ((x.trigger = .oneshot ∨ x.trigger = .periodic) ∧ timeMoved = true ∧ x.nextInstant = some (t + x.guardTicks.setWidth 48)) ∨
        (x.trigger = .cycle ∧ posMoved = true ∧ p + x.guardTicks.toNat = x.cycleOffset.toNat) := by
  have hany : x.nextInstant.any (fun n => x.sealPointOf n == t) = true ↔ x.nextInstant = some (t + x.guardTicks.setWidth 48) := by
    cases x.nextInstant with
    | none => simp
    | some n => simp [Group.sealPointOf, sub_eq_iff_eq_add]
  unfold Group.sealPointReachedAt
  cases ht : x.trigger <;> simp [hany]

theorem commitInstantReachedAt_iff {x : Group} {t : Time} {p : Nat} {timeMoved posMoved : Bool} :
    x.commitInstantReachedAt t p timeMoved posMoved = true ↔
      ((x.trigger = .oneshot ∨ x.trigger = .periodic) ∧ timeMoved = true ∧ x.nextInstant = some t) ∨
        (x.trigger = .cycle ∧ posMoved = true ∧ p = x.cycleOffset.toNat) := by
  unfold Group.commitInstantReachedAt
  cases ht : x.trigger <;> simp

namespace State
variable {s a : State}

theorem mem_overruns {timeMoved posMoved : Bool} {g : GroupNum} : g ∈ s.overruns timeMoved posMoved ↔
    s.sealMark timeMoved posMoved g = true ∧ (s.group g).state.busy = true ∧ (s.group g).returnState = .armed := by
  simp [overruns, Group.overrunsAtSeal, mem_allGroups]

theorem overruns_ascend (timeMoved posMoved : Bool) : (s.overruns timeMoved posMoved).Pairwise (· < ·) :=
  (by decide : allGroups.Pairwise (· < ·)).filter _

/-! ## The tick -/

/-- The device with the counts advanced (R75, R87, R18). -/
def ticked (s : State) : State := (s.setTimebase s.timebase.tick).tickPort

/-- The tick changes the cycle position. -/
def cycleMoves (s : State) : Bool := s.timebase.tick.cyclePosition != s.timebase.cyclePosition

/-- The record of the held write that expires at a tick (R19). -/
def timeoutReports (s : State) : List RecordBody :=
  match s.port with
  | .held tk g _ k =>
    if 0 < s.timebase.holdLimit ∧ s.timebase.holdLimit ≤ k + 1 then [.refused g (s.time + 1) .timeout tk.tx.addr tk.tx.lanes] else []
  | .free | .passing _ => []

/-- A tick, field by field. -/
structure TickLeaves (s a : State) : Prop where
  run : a.run = s.run
  mode : a.mode = s.mode
  timebase : a.timebase = s.timebase.tick
  windows : a.windows = s.windows
  link : a.link = s.link
  engine : a.engine = s.engine
  arbiter : a.arbiter = s.arbiter
  groups : a.groups = .tabulate (s.ticked.reached true s.cycleMoves)
  queue : a.commitQueue = s.commitQueue ++ s.queuedNow (s.ticked.reached true s.cycleMoves)
  records : a.records = ((s.ticked.overruns true s.cycleMoves).map (fun g => RecordBody.overrun g (s.time + 1) .busy 1) ++
    s.timeoutReports).foldl RecordUnit.handOver s.records
  notHeld : (∀ tk g r k, s.port ≠ .held tk g r k) → a.port = s.port ∧ a.reply = s.reply
  held : ∀ tk g r k, s.port = .held tk g r k → (s.timebase.holdLimit = 0 ∨ k + 1 < s.timebase.holdLimit) → a.port = .held tk g r (k + 1)
  expired : ∀ tk g r k, s.port = .held tk g r k → 0 < s.timebase.holdLimit → s.timebase.holdLimit ≤ k + 1 →
    a.port = .free ∧ a.reply = some .error

theorem takeUpHold_of_not_due (h : s.due.hold = false) : s.takeUpHold = s := by
  rw [takeUpHold, if_neg (by rw [h]; decide)]

theorem takeUpHold_of_due {tk : Taken} {g : GroupNum} {r : HoldReason} {k : Nat} (h : s.due.hold = true) (hp : s.port = .held tk g r k) :
    s.takeUpHold = { s with
      due := { s.due with hold := false }, reply := some .error, port := .free
      records := s.records.handOver (.refused g s.time .timeout tk.tx.addr tk.tx.lanes) } := by
  rw [takeUpHold, if_pos h, expireHeld]
  simp only [show (s.setDue { s.due with hold := false }).port = .held tk g r k from hp]
  rfl

theorem tickLeaves_tick (s : State) : TickLeaves s s.tick := by
  have hpoints := s.ticked.takeUpPoints_markPoints (timeMoved := true) (posMoved := s.cycleMoves)
  have htick : s.tick = (s.ticked.markPoints true s.cycleMoves).takeUpPoints.takeUpHold := rfl
  have hhold : (allGroups.foldl Due.takenUp (s.ticked.markPoints true s.cycleMoves).due).hold =
      s.port.countHold.expired s.timebase.holdLimit := by
    rw [foldl_takenUp_hold]
    unfold markPoints
    split <;> rfl
  generalize allGroups.foldl Due.takenUp (s.ticked.markPoints true s.cycleMoves).due = d at hpoints hhold
  rw [htick, hpoints]
  generalize hw : s.ticked.put (s.ticked.reached true s.cycleMoves) _ _ d = w
  have hport : w.port = s.port.countHold := by rw [← hw]; rfl
  have hdue : w.due.hold = s.port.countHold.expired s.timebase.holdLimit := by rw [← hw]; exact hhold
  have hstill : w.due.hold = false → s.timeoutReports = [] → (∀ tk g r k, s.port = .held tk g r k →
      0 < s.timebase.holdLimit → s.timebase.holdLimit ≤ k + 1 → False) → TickLeaves s w.takeUpHold := by
    intro hd hr hno
    rw [takeUpHold_of_not_due hd]
    subst hw
    refine ⟨rfl, rfl, rfl, rfl, rfl, rfl, rfl, rfl, rfl, ?_, fun hp => ⟨?_, rfl⟩, fun tk g r k hp _ => ?_,
      fun tk g r k hp h1 h2 => (hno tk g r k hp h1 h2).elim⟩
    · rw [hr, List.append_nil]
      rfl
    · rw [hport]
      cases hport' : s.port with
      | held tk g r k => exact absurd hport' (hp tk g r k)
      | free => rfl
      | passing tk => rfl
    · rw [hport, hp]
      rfl
  cases hp : s.port with
  | free =>
    refine hstill ?_ ?_ (fun _ _ _ _ h => nomatch hp.symm.trans h)
    · rw [hdue, hp]
      rfl
    · rw [timeoutReports, hp]
  | passing tk =>
    refine hstill ?_ ?_ (fun _ _ _ _ h => nomatch hp.symm.trans h)
    · rw [hdue, hp]
      rfl
    · rw [timeoutReports, hp]
  | held tk g r k =>
    have hport' : w.port = .held tk g r (k + 1) := by rw [hport, hp]; rfl
    have hdue' : w.due.hold = decide (0 < s.timebase.holdLimit ∧ s.timebase.holdLimit ≤ k + 1) := by rw [hdue, hp]; rfl
    by_cases hexp : 0 < s.timebase.holdLimit ∧ s.timebase.holdLimit ≤ k + 1
    · have hreports : s.timeoutReports = [.refused g (s.time + 1) .timeout tk.tx.addr tk.tx.lanes] := by
        rw [timeoutReports, hp]
        exact if_pos hexp
      rw [takeUpHold_of_due (by rw [hdue']; exact decide_eq_true hexp) hport']
      subst hw
      refine ⟨rfl, rfl, rfl, rfl, rfl, rfl, rfl, rfl, rfl, ?_, fun h => absurd hp (h tk g r k), fun tk' g' r' k' h hlimit => ?_,
        fun _ _ _ _ _ _ _ => ⟨rfl, rfl⟩⟩
      · rw [hreports, List.foldl_append]
        rfl
      · obtain ⟨-, -, -, rfl⟩ := Port.held.inj (hp.symm.trans h)
        omega
    · refine hstill ?_ ?_ (fun tk' g' r' k' h h1 h2 => ?_)
      · rw [hdue']
        exact decide_eq_false hexp
      · rw [timeoutReports, hp]
        exact if_neg hexp
      · obtain ⟨-, -, -, rfl⟩ := Port.held.inj (hp.symm.trans h)
        exact hexp ⟨h1, h2⟩

end State

theorem exec_tick {s : State} (hrun : s.run = .running) : exec .tick s = .next (s.settle s.tickUnlessFrozen) :=
  happening_of_running hrun (fun a => a.tickUnlessFrozen)

theorem exec_tick_frozen {s : State} (hs : Settled s) (hrun : s.run = .running) (hf : s.timebase.frozen = true) :
    exec .tick s = .next s := by
  rw [exec_tick hrun, State.tickUnlessFrozen, if_pos hf, State.settle_of_settled _ _ hs]

theorem exec_tick_running {s : State} (hrun : s.run = .running) (hf : s.timebase.frozen = false) :
    exec .tick s = .next (s.settle s.tick) := by
  rw [exec_tick hrun, State.tickUnlessFrozen, if_neg (by rw [hf]; decide)]

/-- Settles O28. -/
theorem tickReachesSealAndCommitPoints : Obligations.TickReachesSealAndCommitPoints := by
  intro s hs hrun hmode hf
  have hleaves := s.tickLeaves_tick
  have hamode : s.tick.mode = .active := hleaves.mode.trans hmode
  have hfollows := State.follows_takeNext (a := s.tick) s hamode
  have htb : (s.settle s.tick).timebase = s.timebase.tick :=
    hfollows.timebase.trans ((State.takesKeep_takeNext s.tick).timebase.trans hleaves.timebase)
  refine ⟨s.settle s.tick, s.ticked.reached true s.cycleMoves, s.ticked.overruns true s.cycleMoves, exec_tick_running hrun hf, ?_⟩
  rw [htb]
  intro T p timed moved sealAt commitAt overrunAt
  have hmoved : s.cycleMoves = true ↔ p ≠ s.timebase.cyclePosition := by simp [State.cycleMoves, p]
  have hactive : (s.ticked.mode == .active) = true := by
    rw [show s.ticked.mode = s.mode from rfl, hmode]
    rfl
  have hseal : ∀ g, s.ticked.sealMark true s.cycleMoves g = true ↔ sealAt (s.group g) := fun g => by
    rw [State.sealMark, hactive, Bool.true_and, sealPointReachedAt_iff, hmoved]
    simp only [true_and, and_assoc, sealAt, timed, moved]
    rfl
  have hcommit : ∀ g, s.ticked.commitMark true s.cycleMoves g = true ↔ commitAt (s.group g) := fun g => by
    rw [State.commitMark, hactive, Bool.true_and, commitInstantReachedAt_iff, hmoved]
    simp only [true_and, and_assoc, commitAt, timed, moved]
    rfl
  have hseal_no : ∀ g, s.ticked.sealMark true s.cycleMoves g = false ↔ ¬ sealAt (s.group g) := fun g => by
    rw [← hseal, Bool.not_eq_true]
  have hcommit_no : ∀ g, s.ticked.commitMark true s.cycleMoves g = false ↔ ¬ commitAt (s.group g) := fun g => by
    rw [← hcommit, Bool.not_eq_true]
  refine ⟨fun g => ?_, State.overruns_ascend _ _, fun g => ?_, ?_⟩
  · intro x sealed committed
    have hcommitted : ∀ y : Group, y.trigger = x.trigger → y.nextInstant = x.nextInstant → y.period = x.period → commitAt x →
        s.ticked.reached true s.cycleMoves g = y.committed T → committed y := by
      intro y htrigger hnext hperiod hat hv
      have hinst : x.trigger = .oneshot ∨ x.trigger = .periodic → y.nextInstant = some T := fun ht => by
        rcases hat with ⟨-, h⟩ | ⟨⟨h, -⟩, -⟩
        · exact hnext.trans h
        · rcases ht with ht | ht <;> exact nomatch ht.symm.trans h
      refine ⟨fun ht => ?_, fun ht => ?_, fun ht => ?_⟩
      · rw [hv, Group.committed, htrigger, ht]
        simp only [hinst (.inl ht), Option.getD_some]
      · rw [hv, Group.committed, htrigger, ht]
        simp only [hinst (.inr ht), Option.getD_some, Option.map_some, hperiod]
      · rw [hv, Group.committed, htrigger, ht]
    have hover : overrunAt x → s.ticked.reached true s.cycleMoves g =
        ({ x with overrunCount := satAdd x.overrunCount 1 } : Group).skipInstant := fun h =>
      Group.atPoints_overrun h.1 h.2.1 ((hseal g).mpr h.2.2)
    refine ⟨fun hst hsl hno => ?_, fun hst hsl hcm => ?_, fun hst hcm => ?_, fun ho ht => ?_, fun ho ht => ?_, fun ho ht => ?_, fun h => ?_⟩
    · exact Group.atPoints_sealed_only hst ((hseal g).mpr hsl) ((hcommit_no g).mpr hno)
    · exact hcommitted sealed rfl rfl rfl hcm (Group.atPoints_sealed_committed hst ((hseal g).mpr hsl) ((hcommit g).mpr hcm))
    · exact hcommitted x rfl rfl rfl hcm (Group.atPoints_committed hst ((hcommit g).mpr hcm))
    · rw [hover ho, Group.skipInstant, ht]
      rfl
    · rw [hover ho, Group.skipInstant, ht]
      rfl
    · rw [hover ho, Group.skipInstant, ht]
      rfl
    · refine Group.atPoints_still ?_
      rcases h with h | ⟨hst, hno⟩ | ⟨hst, hno⟩ | ⟨hb, hno⟩
      · exact .inl h
      · exact .inr (.inl ⟨hst, (hseal_no g).mpr hno⟩)
      · exact .inr (.inr (.inl ⟨hst, (hcommit_no g).mpr hno⟩))
      · exact .inr (.inr (.inr ⟨hb, fun hr => hno ⟨hb, hr.1, (hseal g).mp hr.2⟩⟩))
  · rw [State.mem_overruns, hseal]
    exact ⟨fun ⟨h1, h2, h3⟩ => ⟨h2, h3, h1⟩, fun ⟨h1, h2, h3⟩ => ⟨h3, h1, h2⟩⟩
  · refine State.queueFollows_of_event hs.1 hmode hamode (congrArg Timebase.time hleaves.timebase) hleaves.engine (fun g => ?_) hleaves.queue
      hleaves.records (fun g hold hnew hguard => State.returnSkips_reached (s := s.ticked) hold hnew hguard)
    rw [State.group, hleaves.groups, Table8.get_tabulate]

end Sys2Proof.Machine
end

section
/-! PROOF. The counts of a tick (O27) and the SYNC edge (O30). -/

namespace Sys2Proof.Machine

/-- No group of the device can reach a point. -/
def State.Quiet (s : State) : Prop :=
  s.mode ≠ .active ∨ ∀ g, (s.group g).state = .off ∨ (s.group g).state = .opened ∨ (s.group g).trigger = .manual

namespace State
variable {s a : State}

theorem sealMark_of_manual {timeMoved posMoved : Bool} {g : GroupNum} (h : (s.group g).trigger = .manual) :
    s.sealMark timeMoved posMoved g = false := by
  simp [sealMark, Group.sealPointReachedAt, h]

theorem commitMark_of_manual {timeMoved posMoved : Bool} {g : GroupNum} (h : (s.group g).trigger = .manual) :
    s.commitMark timeMoved posMoved g = false := by
  simp [commitMark, Group.commitInstantReachedAt, h]

theorem reached_of_quiet {timeMoved posMoved : Bool} (h : s.Quiet) : s.reached timeMoved posMoved = s.group := by
  rcases h with hmode | h
  · exact reached_of_not_active hmode
  · funext g
    rcases h g with hst | hst | ht
    · exact Group.atPoints_still (.inl (.inl hst))
    · exact Group.atPoints_still (.inl (.inr hst))
    · exact reached_of_no_marks (sealMark_of_manual ht) (commitMark_of_manual ht)

theorem overruns_of_quiet {timeMoved posMoved : Bool} (h : s.Quiet) : s.overruns timeMoved posMoved = [] := by
  rcases h with hmode | h
  · exact overruns_of_not_active hmode
  · refine List.eq_nil_iff_forall_not_mem.mpr fun g hg => ?_
    obtain ⟨hmark, hbusy, -⟩ := mem_overruns.mp hg
    rcases h g with hst | hst | ht
    · rw [hst] at hbusy
      exact nomatch hbusy
    · rw [hst] at hbusy
      exact nomatch hbusy
    · exact nomatch (sealMark_of_manual ht).symm.trans hmark

theorem tick_groups_of_quiet (h : s.Quiet) : s.tick.groups = s.groups ∧ s.tick.commitQueue = s.commitQueue ∧
    s.tick.records = s.timeoutReports.foldl RecordUnit.handOver s.records := by
  have hleaves := s.tickLeaves_tick
  have hquiet : s.ticked.Quiet := h
  have hreached : s.ticked.reached true s.cycleMoves = s.group := reached_of_quiet hquiet
  refine ⟨hleaves.groups.trans ?_, hleaves.queue.trans ?_, hleaves.records.trans ?_⟩
  · rw [hreached]
    exact Table8.tabulate_get s.groups
  · rw [hreached, queuedNow_self, List.append_nil]
  · rw [overruns_of_quiet hquiet]
    rfl

/-- Nothing but the takes, a record begun and a grant follows a timebase event that keeps the engine, the mode and the arbiter, and
not even a take where the event reaches no point (`quiet`). -/
theorem follows_of_event {quiet : Prop} (hs : NothingDue s) (he : a.engine = s.engine) (hm : a.mode = s.mode)
    (ha : a.arbiter = s.arbiter) (hidle : s.mode ≠ .active → quiet)
    (hquiet : quiet → a.groups = s.groups ∧ a.commitQueue = s.commitQueue) :
    ∃ w, TakesKeep a w ∧ w.Follows (s.settle a) ∧ (quiet → w = a) := by
  obtain ⟨htake, hflush, hreset, -⟩ := hs
  have hcan : quiet → a.canTake = false := fun hq => by
    simpa only [canTake, he, (hquiet hq).2, hm] using htake
  by_cases hmode : s.mode = .active
  · exact ⟨a.takeNext, takesKeep_takeNext a, follows_takeNext s (hm.trans hmode), fun hq => takeNext_of_not_canTake a (hcan hq)⟩
  · obtain ⟨hgroups, hqueue⟩ := hquiet (hidle hmode)
    refine ⟨a, .refl a, follows_settle s (hcan (hidle hmode)) ?_ ?_, fun _ => rfl⟩
    · simpa only [flushDone, he, hqueue, hm, hgroups] using hflush
    · simpa only [softResetDone, hm, ha] using hreset

end State

theorem timebase_tick_eq (t : Timebase) : t.tick = { t with
    count := 0, time := t.time + 1
    cyclePosition := if t.cyclePosition + 1 < t.cycleLength then t.cyclePosition + 1 else 0
    cycleNumber := if t.cyclePosition + 1 < t.cycleLength then t.cycleNumber else t.cycleNumber + 1 } := by
  by_cases h : t.cyclePosition + 1 < t.cycleLength
  · simp [Timebase.tick, h, Nat.not_le.mpr h]
  · simp [Timebase.tick, h, Nat.not_lt.mp h]

/-- Settles O27. -/
theorem tickAdvancesTheCounts : Obligations.TickAdvancesTheCounts := by
  intro s hs hrun
  refine ⟨exec_tick_frozen hs hrun, fun hf => ⟨_, exec_tick_running hrun hf, ?_⟩⟩
  have hleaves := s.tickLeaves_tick
  obtain ⟨w, hkeep, hfollows, hquiet⟩ := State.follows_of_event hs.1 hleaves.engine hleaves.mode hleaves.arbiter .inl
    (fun hq => ⟨(State.tick_groups_of_quiet hq).1, (State.tick_groups_of_quiet hq).2.1⟩)
  have hport : (s.settle s.tick).port = s.tick.port := hfollows.port.trans hkeep.port
  have hreply : (s.settle s.tick).reply = s.tick.reply := hfollows.reply.trans hkeep.reply
  have hreports : s.Quiet → Reports s (s.settle s.tick) s.timeoutReports := fun hq => by
    have hr : w.records = s.timeoutReports.foldl RecordUnit.handOver s.records := by
      rw [hquiet hq]
      exact (State.tick_groups_of_quiet hq).2.2
    exact hfollows.reports ⟨congrArg RecordUnit.queue hr, congrArg RecordUnit.lostCount hr⟩
  refine ⟨?_, hfollows.mode.trans (hkeep.mode.trans hleaves.mode), hfollows.windows.trans (hkeep.windows.trans hleaves.windows),
    hfollows.link.trans (hkeep.link.trans hleaves.link), fun hmode => ?_, fun hp => ?_, fun tk g r k hp hlimit => ?_,
    fun tk g r k hp hpos hlimit => ?_⟩
  · rw [hfollows.timebase, hkeep.timebase, hleaves.timebase]
    exact timebase_tick_eq s.timebase
  · rw [hfollows.groups, hquiet (.inl hmode), (State.tick_groups_of_quiet (.inl hmode)).1]
  · obtain ⟨hp1, hr1⟩ := hleaves.notHeld hp
    have hno : s.timeoutReports = [] := by
      unfold State.timeoutReports
      split
      · next hheld => exact absurd hheld (hp _ _ _ _)
      · rfl
      · rfl
    exact ⟨hport.trans hp1, hreply.trans hr1, fun hq => hno ▸ hreports hq⟩
  · have hno : s.timeoutReports = [] := by
      rw [State.timeoutReports, hp]
      exact if_neg (by omega)
    exact ⟨hport.trans (hleaves.held tk g r k hp hlimit), fun hq => hno ▸ hreports hq⟩
  · have hone : s.timeoutReports = [.refused g (s.time + 1) .timeout tk.tx.addr tk.tx.lanes] := by
      rw [State.timeoutReports, hp]
      exact if_pos ⟨hpos, hlimit⟩
    obtain ⟨hp1, hr1⟩ := hleaves.expired tk g r k hp hpos hlimit
    exact ⟨hport.trans hp1, hreply.trans hr1, fun hq => hone ▸ hreports hq⟩

/-! ## The SYNC edge (R88) and the FREEZE line (R78) -/

theorem exec_syncEdge {s : State} (hrun : s.run = .running) (e : Edge) : exec (.syncEdge e) s = .next (s.settle (s.syncEdge e)) := by
  show Host.Outcome.next (if s.runs then s.settle (s.syncEdge e) else s.setSync e) = _
  rw [if_pos (by simp [State.runs, hrun])]

theorem exec_freezeBegin {s : State} (hrun : s.run = .running) : exec .freezeBegin s = .next (s.settle (s.setFreeze true)) := by
  show Host.Outcome.next (if s.runs then s.settle (s.setFreeze true) else s.setFreeze true) = _
  rw [if_pos (by simp [State.runs, hrun])]

theorem exec_freezeEnd {s : State} (hrun : s.run = .running) : exec .freezeEnd s = .next (s.settle (s.setFreeze false)) := by
  show Host.Outcome.next (if s.runs then s.settle (s.setFreeze false) else s.setFreeze false) = _
  rw [if_pos (by simp [State.runs, hrun])]

theorem Group.committed_of_cycle (x : Group) (h : x.trigger = .cycle) (now : Time) :
    x.committed now = { x with state := .queued, epochInstant := now, nextInstant := none, returnState := .armed } := by
  cases x
  cases h
  rfl

theorem Group.skipInstant_of_cycle {x : Group} (h : x.trigger = .cycle) : x.skipInstant = x := by
  cases x
  cases h
  rfl

theorem qualifies_iff (sel : SyncSelect) (e : Edge) : sel.qualifies e = true ↔
    (sel = .rise ∧ e = .rise) ∨ (sel = .fall ∧ e = .fall) ∨ sel = .both := by
  cases sel <;> cases e <;> decide

theorem frozen_iff (t : Timebase) : t.frozen = true ↔ t.freezeEnable = true ∧ t.freezeLine = true := by
  simp [Timebase.frozen]

namespace State
variable {s a : State}

/-- The device whose cycle an edge restarts (R88). -/
def restarted (s : State) : State :=
  s.setTimebase { s.timebase with cyclePosition := 0, cycleNumber := s.timebase.cycleNumber + 1 }

/-- A qualifying edge, as one new group table. -/
theorem restartCycle_eq (s : State) :
    s.restartCycle = s.restarted.put (s.restarted.reached false (s.timebase.cyclePosition != 0))
      (s.commitQueue ++ s.queuedNow (s.restarted.reached false (s.timebase.cyclePosition != 0)))
      ((s.restarted.overruns false (s.timebase.cyclePosition != 0)).map (fun g => .overrun g s.time .busy 1))
      (allGroups.foldl Due.takenUp (s.restarted.markPoints false (s.timebase.cyclePosition != 0)).due) :=
  s.restarted.takeUpPoints_markPoints false (s.timebase.cyclePosition != 0)

/-- Neither TIME nor the position moves, so that no point is reached. -/
theorem reached_of_still (s : State) : s.reached false false = s.group ∧ s.overruns false false = [] := by
  have hseal : ∀ g, s.sealMark false false g = false := fun g => by
    rw [sealMark, ← Bool.not_eq_true, Bool.and_eq_true, sealPointReachedAt_iff]
    simp
  have hcommit : ∀ g, s.commitMark false false g = false := fun g => by
    rw [commitMark, ← Bool.not_eq_true, Bool.and_eq_true, commitInstantReachedAt_iff]
    simp
  refine ⟨funext fun g => reached_of_no_marks (hseal g) (hcommit g), List.eq_nil_iff_forall_not_mem.mpr fun g hg => ?_⟩
  obtain ⟨hmark, -⟩ := mem_overruns.mp hg
  exact nomatch (hseal g).symm.trans hmark

/-- Where the position was 0, or outside ACTIVE, a qualifying edge reaches no point. -/
theorem restartCycle_of_still (h : s.mode ≠ .active ∨ s.timebase.cyclePosition = 0) : s.restartCycle.groups = s.groups ∧
    s.restartCycle.commitQueue = s.commitQueue ∧ s.restartCycle.records = s.records := by
  have hstill : s.restarted.reached false (s.timebase.cyclePosition != 0) = s.group ∧
      s.restarted.overruns false (s.timebase.cyclePosition != 0) = [] := by
    rcases h with hmode | hpos
    · have hmode' : s.restarted.mode ≠ .active := hmode
      exact ⟨reached_of_not_active hmode', overruns_of_not_active hmode'⟩
    · rw [hpos]
      exact s.restarted.reached_of_still
  rw [restartCycle_eq, hstill.1, hstill.2, queuedNow_self, List.append_nil]
  exact ⟨Table8.tabulate_get s.groups, rfl, rfl⟩

theorem sealMark_restarted_iff (hmode : s.mode = .active) (g : GroupNum) : s.restarted.sealMark false true g = true ↔
    (s.group g).trigger = .cycle ∧ (s.group g).cycleOffset.toNat = (s.group g).guardTicks.toNat := by
  have hactive : (s.restarted.mode == .active) = true := beq_iff_eq.mpr hmode
  have hzero : s.restarted.timebase.cyclePosition = 0 := rfl
  rw [sealMark, hactive, Bool.true_and, sealPointReachedAt_iff, hzero, show s.restarted.group g = s.group g from rfl]
  simp [eq_comm]

theorem commitMark_restarted_iff (hmode : s.mode = .active) (g : GroupNum) : s.restarted.commitMark false true g = true ↔
    (s.group g).trigger = .cycle ∧ (s.group g).cycleOffset = 0 := by
  have hactive : (s.restarted.mode == .active) = true := beq_iff_eq.mpr hmode
  have hzero : s.restarted.timebase.cyclePosition = 0 := rfl
  rw [commitMark, hactive, Bool.true_and, commitInstantReachedAt_iff, hzero, show s.restarted.group g = s.group g from rfl]
  simp [← BitVec.toNat_inj, eq_comm]

theorem syncEdge_of_qualifying {e : Edge} (hf : s.timebase.frozen = false) (hq : s.timebase.syncSelect.qualifies e = true) :
    s.syncEdge e = (s.setSync e).restartCycle := if_neg (by simp [hf, hq])

theorem syncEdge_of_not {e : Edge} (h : s.timebase.frozen = true ∨ s.timebase.syncSelect.qualifies e = false) :
    s.syncEdge e = s.setSync e := if_pos (by simpa using h)

end State

/-- The tick after the FREEZE line has taken level `b` (R78). -/
theorem tick_after_freeze {s : State} (hs : Settled s) (hrun : s.run = .running) {b : Bool}
    (h : s.timebase.freezeEnable = false ∨ b = false) : ∃ v, exec .tick (s.setFreeze b) = .next v ∧ v.time = s.time + 1 := by
  have hf : (s.setFreeze b).timebase.frozen = false := by
    rcases h with h | h <;> simp [Timebase.frozen, State.setFreeze, State.setTimebase, h]
  obtain ⟨t, hexec, htb, -⟩ := (tickAdvancesTheCounts (s.setFreeze b) (hs.setTimebase _) hrun).2 hf
  exact ⟨t, hexec, congrArg Timebase.time htb⟩

/-- Settles O30. -/
theorem syncAndFreezeLines : Obligations.SyncAndFreezeLines := by
  intro s hs hrun
  have hfreeze : ∀ b, s.settle (s.setFreeze b) = s.setFreeze b := fun b => State.settle_of_settled _ _ (hs.setTimebase _)
  refine ⟨?_, ⟨_, (exec_freezeBegin hrun).trans (congrArg _ (hfreeze true)), rfl,
    fun he => exec_tick_frozen (hs.setTimebase _) hrun ((frozen_iff _).mpr ⟨he, rfl⟩),
    fun he => tick_after_freeze hs hrun (.inl he)⟩, ?_⟩
  · intro frozen qualifies
    refine ⟨fun e h => ?_, fun e hf hq => ?_⟩
    · have hline : s.syncEdge e = s.setSync e := State.syncEdge_of_not (by
        rw [frozen_iff, ← Bool.not_eq_true, qualifies_iff]
        exact h)
      rw [exec_syncEdge hrun, hline]
      exact congrArg _ (State.settle_of_settled _ _ (hs.setTimebase _))
    · have hstart : s.syncEdge e = (s.setSync e).restartCycle := State.syncEdge_of_qualifying
        (by rw [← Bool.not_eq_true, frozen_iff]; exact hf) ((qualifies_iff _ _).mpr hq)
      have heq := (s.setSync e).restartCycle_eq
      have hquiet := State.restartCycle_of_still (s := s.setSync e)
      rw [exec_syncEdge hrun, hstart]
      generalize (s.setSync e).restartCycle = a at heq hquiet
      obtain ⟨w, hkeep, hfollows, hw⟩ := State.follows_of_event (s := s) (a := a)
        (quiet := s.mode ≠ .active ∨ s.timebase.cyclePosition = 0) hs.1 (by rw [heq]; rfl) (by rw [heq]; rfl) (by rw [heq]; rfl) .inl
        (fun h => ⟨(hquiet h).1, (hquiet h).2.1⟩)
      refine ⟨s.settle a, rfl, ?_, ?_, fun h => ⟨?_, ?_⟩, fun hact hpos => ?_⟩
      · rw [hfollows.timebase, hkeep.timebase, heq]
        rfl
      · rw [hfollows.port, hkeep.port, heq]
        rfl
      · rw [hfollows.groups, hw h]
        exact (hquiet h).1
      · refine hfollows.reports ?_
        rw [hw h]
        exact Reports.none (hquiet h).2.2
      · rw [show ((s.setSync e).timebase.cyclePosition != 0) = true from bne_iff_ne.mpr hpos] at heq
        have hseal : ∀ g, _ ↔ _ := fun g => State.sealMark_restarted_iff (s := s.setSync e) hact g
        have hcommit : ∀ g, _ ↔ _ := fun g => State.commitMark_restarted_iff (s := s.setSync e) hact g
        refine ⟨(s.setSync e).restarted.reached false true, (s.setSync e).restarted.overruns false true, ?_⟩
        intro sealAt commitAt overrunAt
        refine ⟨fun g => ?_, State.overruns_ascend _ _, fun g => ?_, ?_⟩
        · intro x sealed queued
          have hcommitted : ∀ y : Group, y.trigger = .cycle → y.committed s.time = queued y := fun y ht => y.committed_of_cycle ht s.time
          refine ⟨fun hst hsl hno => ?_, fun hst hsl hcm => ?_, fun hst hcm => ?_, fun ho => ?_, fun h => ?_⟩
          · exact Group.atPoints_sealed_only hst ((hseal g).mpr hsl) (Bool.eq_false_iff.mpr fun h => hno ((hcommit g).mp h))
          · exact (Group.atPoints_sealed_committed hst ((hseal g).mpr hsl) ((hcommit g).mpr hcm)).trans (hcommitted sealed hcm.1)
          · exact (Group.atPoints_committed hst ((hcommit g).mpr hcm)).trans (hcommitted x hcm.1)
          · exact (Group.atPoints_overrun ho.1 ho.2.1 ((hseal g).mpr ho.2.2)).trans (Group.skipInstant_of_cycle ho.2.2.1)
          · refine Group.atPoints_still (h.imp_right (Or.imp ?_ (Or.imp ?_ ?_)))
            · exact fun h => ⟨h.1, Bool.eq_false_iff.mpr fun hm => h.2 ((hseal g).mp hm)⟩
            · exact fun h => ⟨h.1, Bool.eq_false_iff.mpr fun hm => h.2 ((hcommit g).mp hm)⟩
            · exact fun h => ⟨h.1, fun hr => h.2 ⟨h.1, hr.1, (hseal g).mp hr.2⟩⟩
        · rw [State.mem_overruns, hseal]
          exact ⟨fun ⟨h1, h2, h3⟩ => ⟨h2, h3, h1⟩, fun ⟨h1, h2, h3⟩ => ⟨h3, h1, h2⟩⟩
        · refine State.queueFollows_of_event hs.1 hact (by rw [heq]; exact hact) (by rw [heq]; rfl) (by rw [heq]; rfl) (fun g => ?_)
            (by rw [heq]; rfl) (by rw [heq]; rfl)
            (fun g hold hnew hguard => State.returnSkips_reached (s := (s.setSync e).restarted) hold hnew hguard)
          rw [heq, State.put_group]
  · obtain ⟨v, hv, htime⟩ := tick_after_freeze hs hrun (b := false) (.inr rfl)
    exact ⟨_, v, (exec_freezeEnd hrun).trans (congrArg _ (hfreeze false)), rfl, hv, htime⟩

end Sys2Proof.Machine
end

section
/-! PROOF. A forward TIME SET (O26). -/

namespace Sys2Proof.Machine

/-! ## The points of a PERIODIC group that a move passes over -/

theorem passedOver_iff (t0 t1 x : Time) : passedOver t0 t1 x = true ↔ 1 ≤ (x - t0).toNat ∧ (x - t0).toNat ≤ (t1 - t0).toNat :=
  decide_eq_true_iff

/-- From a point passed over on, the points of a period up to the first that lies behind the new TIME (R38). -/
theorem passedOver_upTo {t0 t1 m : Time} {period : BitVec 32} (hmove : (t1 - t0).toNat < 2 ^ 47) (h : passedOver t0 t1 m = true)
    (hp : period ≠ 0) :
    let k := ((t1 - t0).toNat - (m - t0).toNat) / period.toNat + 1
    (∀ j < k, passedOver t0 t1 (m + BitVec.ofNat 48 (j * period.toNat)) = true) ∧
      passedOver t0 t1 (m + BitVec.ofNat 48 (k * period.toNat)) = false ∧
      atOrBefore t1 (m + BitVec.ofNat 48 (k * period.toNat)) = false := by
  have hpos : 0 < period.toNat := Nat.pos_of_ne_zero fun h0 => hp (BitVec.eq_of_toNat_eq h0)
  have hlt := period.isLt
  dsimp only
  generalize hk : ((t1 - t0).toNat - (m - t0).toNat) / period.toNat + 1 = k
  have hfrom : ∀ i : Nat, m + BitVec.ofNat 48 i - t0 = (m - t0) + BitVec.ofNat 48 i := fun i => by ring
  have hto : ∀ i : Nat, t1 - (m + BitVec.ofNat 48 i) = (t1 - t0) - ((m - t0) + BitVec.ofNat 48 i) := fun i => by ring
  rw [passedOver_iff] at h
  simp only [← Bool.not_eq_true, passedOver_iff]
  unfold atOrBefore distance
  rw [decide_eq_true_iff]
  simp only [hfrom, hto]
  generalize t1 - t0 = d at h hmove hk
  generalize m - t0 = e at h hk
  generalize period.toNat = p at hpos hlt hk
  obtain ⟨hone, hle⟩ := h
  have hdiv : (d.toNat - e.toNat) / p * p ≤ d.toNat - e.toNat := Nat.div_mul_le_self _ _
  have hmod : d.toNat - e.toNat < (d.toNat - e.toNat) / p * p + p := Nat.lt_div_mul_add hpos
  have hsplit : k * p = (d.toNat - e.toNat) / p * p + p := by rw [← hk, Nat.add_mul, Nat.one_mul]
  refine ⟨fun j hj => ?_, ?_, ?_⟩
  · have hj' : j * p ≤ (d.toNat - e.toNat) / p * p := Nat.mul_le_mul_right p (by omega)
    rw [BitVec.toNat_add, BitVec.toNat_ofNat]
    omega
  · rw [BitVec.toNat_add, BitVec.toNat_ofNat]
    omega
  · rw [BitVec.toNat_sub, BitVec.toNat_add, BitVec.toNat_ofNat]
    omega

/-! ## A group of which a move passes over points (R38) -/

namespace Group

/-- The group after step 1: sealed where its seal point is passed over. -/
def jumpSealed (x : Group) (now t0 t1 : Time) : Group := if x.state = .armed ∧ x.sealPassed t0 t1 = true then x.sealedAt now else x

/-- The group after steps 1 and 2: queued where its commit instant is passed over. -/
def jumpCommitted (x : Group) (now t0 t1 : Time) : Group :=
  if x.state = .sealed ∧ x.commitPassed t0 t1 = true then x.committed now else x

/-- How many instants a busy group skips (step 3). -/
def jumpSkips (x : Group) (t0 t1 : Time) : Nat :=
  match x.nextInstant with
  | none => 0
  | some n =>
    if (x.state.busy && x.returnState == .armed && passedOver t0 t1 (x.sealPointOf n)) = true then
      match x.trigger with
      | .periodic => x.passedCount t0 t1 n
      | .oneshot => 1
      | .cycle | .manual => 0
    else 0

/-- The group after step 3. -/
def jumpSkipped (x : Group) (t0 t1 : Time) : Group :=
  if x.jumpSkips t0 t1 = 0 then x
  else
    let y := if x.trigger = .oneshot then x.dropInstant else x.advanceInstant (x.jumpSkips t0 t1)
    { y with overrunCount := satAdd x.overrunCount (x.jumpSkips t0 t1) }

/-- The group after steps 1 and 2, and what it skips after them. -/
def jumpReady (x : Group) (now t0 t1 : Time) : Group := (x.jumpSealed now t0 t1).jumpCommitted now t0 t1

/-- The group after the move. -/
def jumped (x : Group) (now t0 t1 : Time) : Group :=
  if x.trigger.timed = true then (x.jumpReady now t0 t1).jumpSkipped t0 t1 else x

/-- How many instants the group skips in the move. -/
def jumpCount (x : Group) (now t0 t1 : Time) : Nat :=
  if x.trigger.timed = true then (x.jumpReady now t0 t1).jumpSkips t0 t1 else 0

theorem jumpSkipped_state (x : Group) (t0 t1 : Time) : (x.jumpSkipped t0 t1).state = x.state := by
  unfold jumpSkipped
  split
  · rfl
  · dsimp only
    split <;> rfl

end Group

namespace State
variable {s a : State}

theorem jumpSeal_eq (g : GroupNum) (t0 t1 : Time) :
    s.jumpSeal g t0 t1 = s.update g ((s.group g).jumpSealed s.time t0 t1) s.commitQueue [] s.due := by
  unfold jumpSeal Group.jumpSealed
  split
  · rw [sealGroup_eq, update_eq]
    rfl
  · exact (s.update_self g).symm

theorem jumpCommit_eq (g : GroupNum) (t0 t1 : Time) :
    s.jumpCommit g t0 t1 = s.update g ((s.group g).jumpCommitted s.time t0 t1)
      (s.commitQueue ++ if (s.group g).state = .sealed ∧ (s.group g).commitPassed t0 t1 = true then [g] else []) [] s.due := by
  unfold jumpCommit Group.jumpCommitted
  by_cases h : (s.group g).state = .sealed ∧ (s.group g).commitPassed t0 t1 = true
  · rw [if_pos h, if_pos h, if_pos h, commitGroup_eq, update_eq]
    rfl
  · rw [if_neg h, if_neg h, if_neg h, List.append_nil]
    exact (s.update_self g).symm

theorem jumpOverrun_eq (g : GroupNum) (t0 t1 : Time) :
    s.jumpOverrun g t0 t1 = s.update g ((s.group g).jumpSkipped t0 t1) s.commitQueue
      (jumpReport g s.time ((s.group g).jumpSkips t0 t1)) s.due := by
  have hskip : ∀ (y : Group) (k : Nat), (s.modifyGroup g (fun _ => y)).countOverrun g .jump k =
      { s with
        groups := s.groups.set g { y with overrunCount := satAdd y.overrunCount k }
        records := s.records.handOver (.overrun g s.time .jump (min k 65535)) } := fun y k => by
    rw [State.modifyGroup_eq, countOverrun_setGroup]
  have hstill : (s.group g).jumpSkips t0 t1 = 0 → s = s.update g ((s.group g).jumpSkipped t0 t1) s.commitQueue
      (jumpReport g s.time ((s.group g).jumpSkips t0 t1)) s.due := fun h => by
    rw [h, jumpReport_zero, Group.jumpSkipped, if_pos h, update_self]
  cases hn : (s.group g).nextInstant with
  | none =>
    have hzero : (s.group g).jumpSkips t0 t1 = 0 := by simp only [Group.jumpSkips, hn]
    have hjump : s.jumpOverrun g t0 t1 = s := by simp only [jumpOverrun, hn]
    exact hjump.trans (hstill hzero)
  | some n =>
    by_cases hover : ((s.group g).state.busy && (s.group g).returnState == .armed && passedOver t0 t1 ((s.group g).sealPointOf n)) = true
    · cases ht : (s.group g).trigger with
      | periodic =>
        have hk : (s.group g).jumpSkips t0 t1 = (s.group g).passedCount t0 t1 n := by simp only [Group.jumpSkips, hn, if_pos hover, ht]
        have hpos : (s.group g).passedCount t0 t1 n ≠ 0 := Nat.succ_ne_zero _
        have hjump : s.jumpOverrun g t0 t1 =
            (s.modifyGroup g (fun _ => (s.group g).advanceInstant ((s.group g).passedCount t0 t1 n))).countOverrun g .jump
              ((s.group g).passedCount t0 t1 n) := by
          simp only [jumpOverrun, hn, if_pos hover, ht]
          rfl
        rw [hjump, hskip, update_eq, hk, jumpReport_pos hpos, Group.jumpSkipped, hk, if_neg hpos, if_neg (by rw [ht]; decide)]
        rfl
      | oneshot =>
        have hk : (s.group g).jumpSkips t0 t1 = 1 := by simp only [Group.jumpSkips, hn, if_pos hover, ht]
        have hjump : s.jumpOverrun g t0 t1 = (s.modifyGroup g (fun _ => (s.group g).dropInstant)).countOverrun g .jump 1 := by
          simp only [jumpOverrun, hn, if_pos hover, ht]
          rfl
        rw [hjump, hskip, update_eq, hk, jumpReport_pos Nat.one_ne_zero, Group.jumpSkipped, hk, if_neg Nat.one_ne_zero, if_pos ht]
        rfl
      | cycle =>
        have hjump : s.jumpOverrun g t0 t1 = s := by simp only [jumpOverrun, hn, if_pos hover, ht]
        exact hjump.trans (hstill (by simp only [Group.jumpSkips, hn, if_pos hover, ht]))
      | manual =>
        have hjump : s.jumpOverrun g t0 t1 = s := by simp only [jumpOverrun, hn, if_pos hover, ht]
        exact hjump.trans (hstill (by simp only [Group.jumpSkips, hn, if_pos hover, ht]))
    · have hjump : s.jumpOverrun g t0 t1 = s := by simp only [jumpOverrun, hn, if_neg hover]
      exact hjump.trans (hstill (by simp only [Group.jumpSkips, hn, if_neg hover]))

end State

/-- The group enters the commit queue in the move. -/
def Group.jumpQueues (x : Group) (now t0 t1 : Time) : Bool :=
  x.trigger.timed && (x.jumpSealed now t0 t1).state == .sealed && (x.jumpSealed now t0 t1).commitPassed t0 t1

namespace State
variable {s a : State}

/-- A move handles one group by its own fields (R38). -/
theorem jumpGroup_eq (g : GroupNum) (t0 t1 : Time) :
    s.jumpGroup t0 t1 g = s.update g ((s.group g).jumped s.time t0 t1)
      (s.commitQueue ++ if (s.group g).jumpQueues s.time t0 t1 = true then [g] else [])
      (jumpReport g s.time ((s.group g).jumpCount s.time t0 t1)) s.due := by
  unfold jumpGroup
  by_cases ht : (s.group g).trigger.timed = true
  · have hself : ∀ (y : Group) (q : List GroupNum), (s.update g y q [] s.due).group g = y := fun y q => by
      rw [update, put_group, Function.update_self]
    have hqueue : (if (s.group g).jumpQueues s.time t0 t1 = true then [g] else []) =
        if ((s.group g).jumpSealed s.time t0 t1).state = .sealed ∧ ((s.group g).jumpSealed s.time t0 t1).commitPassed t0 t1 = true then [g]
        else [] := by simp [Group.jumpQueues, ht]
    rw [if_pos ht, jumpSeal_eq, jumpCommit_eq, hself]
    rw [show (s.update g ((s.group g).jumpSealed s.time t0 t1) s.commitQueue [] s.due).time = s.time from rfl,
      show (s.update g ((s.group g).jumpSealed s.time t0 t1) s.commitQueue [] s.due).commitQueue = s.commitQueue from rfl,
      show (s.update g ((s.group g).jumpSealed s.time t0 t1) s.commitQueue [] s.due).due = s.due from rfl, update_update, ← hqueue,
      jumpOverrun_eq, List.append_nil, hself, Group.jumped, if_pos ht, Group.jumpCount, if_pos ht]
    exact update_update g _ _ _ _ [] _ s.due s.due
  · have hq : (s.group g).jumpQueues s.time t0 t1 = false := by simp [Group.jumpQueues, ht]
    rw [if_neg ht, Group.jumped, if_neg ht, Group.jumpCount, if_neg ht, jumpReport_zero, hq, if_neg (by decide), List.append_nil,
      update_self]

end State

end Sys2Proof.Machine
end

section
/-! PROOF. What a forward TIME SET reaches, group by group (O26). -/

namespace Sys2Proof.Machine

namespace Group
variable {x : Group} {now t0 t1 : Time}

theorem sealPassed_of_next {n : Time} (hn : x.nextInstant = some n) : x.sealPassed t0 t1 = passedOver t0 t1 (x.sealPointOf n) := by
  simp [sealPassed, hn]

theorem commitPassed_of_next {n : Time} (hn : x.nextInstant = some n) : x.commitPassed t0 t1 = passedOver t0 t1 n := by
  simp [commitPassed, hn]

theorem jumpReady_still (h : (x.state = .armed ∧ x.sealPassed t0 t1 = false) ∨ (x.state = .sealed ∧ x.commitPassed t0 t1 = false) ∨
    (x.state ≠ .armed ∧ x.state ≠ .sealed)) : x.jumpReady now t0 t1 = x := by
  unfold jumpReady jumpSealed jumpCommitted
  rcases h with ⟨hst, hp⟩ | ⟨hst, hp⟩ | ⟨harmed, hsealed⟩
  · simp [hst, hp]
  · simp [hst, hp]
  · simp [harmed, hsealed]

theorem jumpReady_sealed (hst : x.state = .armed) (hs : x.sealPassed t0 t1 = true) (hc : x.commitPassed t0 t1 = false) :
    x.jumpReady now t0 t1 = x.sealedAt now := by
  have hc' : (x.sealedAt now).commitPassed t0 t1 = false := hc
  simp [jumpReady, jumpSealed, jumpCommitted, hst, hs, hc']

theorem jumpReady_sealed_committed (hst : x.state = .armed) (hs : x.sealPassed t0 t1 = true) (hc : x.commitPassed t0 t1 = true) :
    x.jumpReady now t0 t1 = (x.sealedAt now).committed now := by
  rw [jumpReady, jumpSealed, if_pos ⟨hst, hs⟩, jumpCommitted]
  exact if_pos ⟨rfl, hc⟩

theorem jumpReady_committed (hst : x.state = .sealed) (hc : x.commitPassed t0 t1 = true) :
    x.jumpReady now t0 t1 = x.committed now := by
  rw [jumpReady, jumpSealed, if_neg (by simp [hst]), jumpCommitted, if_pos ⟨hst, hc⟩]

theorem jumpSkips_of_still (h : x.state.busy = false ∨ x.returnState = .opened ∨ x.nextInstant = none ∨ x.sealPassed t0 t1 = false) :
    x.jumpSkips t0 t1 = 0 := by
  cases hn : x.nextInstant with
  | none => simp [jumpSkips, hn]
  | some n =>
    rw [sealPassed_of_next hn, hn] at h
    rcases h with h | h | h | h
    · simp [jumpSkips, hn, h]
    · simp [jumpSkips, hn, h]
    · exact nomatch h
    · simp [jumpSkips, hn, h]

theorem jumpSkipped_of_zero (h : x.jumpSkips t0 t1 = 0) : x.jumpSkipped t0 t1 = x := if_pos h

/-- A group that is not busy after steps 1 and 2 skips nothing. -/
theorem jumped_of_ready {y : Group} (ht : x.trigger.timed = true) (hy : x.jumpReady now t0 t1 = y) (hk : y.jumpSkips t0 t1 = 0) :
    x.jumped now t0 t1 = y ∧ x.jumpCount now t0 t1 = 0 := by
  rw [jumped, if_pos ht, jumpCount, if_pos ht, hy]
  exact ⟨jumpSkipped_of_zero hk, hk⟩

/-- What a PERIODIC group skips, from the next seal point passed over up to the first that is not (R38). -/
theorem jumpSkipped_periodic {m : Time} (hmove : (t1 - t0).toNat < 2 ^ 47) (hb : x.state.busy = true) (hr : x.returnState = .armed)
    (ht : x.trigger = .periodic) (hn : x.nextInstant = some m) (hp : x.period ≠ 0) :
    let k := x.jumpSkips t0 t1
    let sealAt := fun i : Nat => m + BitVec.ofNat 48 (i * x.period.toNat) - x.guardTicks.setWidth 48
    (∀ j < k, passedOver t0 t1 (sealAt j) = true) ∧ passedOver t0 t1 (sealAt k) = false ∧
      (k ≠ 0 → atOrBefore t1 (sealAt k) = false) ∧
      x.jumpSkipped t0 t1 = { x with
        nextInstant := some (m + BitVec.ofNat 48 (k * x.period.toNat))
        overrunCount := if k = 0 then x.overrunCount else min (x.overrunCount + k) 65535 } := by
  intro k sealAt
  have hsealAt : ∀ i, sealAt i = x.sealPointOf m + BitVec.ofNat 48 (i * x.period.toNat) := fun i => by
    simp only [sealAt, sealPointOf]
    ring
  by_cases hpassed : passedOver t0 t1 (x.sealPointOf m) = true
  · have hk : k = x.passedCount t0 t1 m := by simp [k, jumpSkips, hn, hb, hr, hpassed, ht]
    have hpos : k ≠ 0 := hk ▸ Nat.succ_ne_zero _
    obtain ⟨hupto, hafter, hlater⟩ := passedOver_upTo hmove hpassed hp
    simp only [hsealAt, hk]
    refine ⟨hupto, hafter, fun _ => hlater, ?_⟩
    rw [← hk, jumpSkipped, if_neg hpos, if_neg (by rw [ht]; decide), if_neg hpos, advanceInstant, hn]
    rfl
  · have hk : k = 0 := jumpSkips_of_still (.inr (.inr (.inr (by rw [sealPassed_of_next hn, ← Bool.not_eq_true]; exact hpassed))))
    have hsame : x.jumpSkipped t0 t1 = x := jumpSkipped_of_zero hk
    simp only [hsealAt, hk, Nat.zero_mul]
    refine ⟨fun j hj => absurd hj (Nat.not_lt_zero j), ?_, fun h => absurd rfl h, ?_⟩
    · simpa using hpassed
    · rw [hsame]
      cases x
      subst hn
      simp

theorem jumpSkipped_oneshot {m : Time} (hb : x.state.busy = true) (hr : x.returnState = .armed) (ht : x.trigger = .oneshot)
    (hn : x.nextInstant = some m) (hpassed : passedOver t0 t1 (x.sealPointOf m) = true) :
    x.jumpSkips t0 t1 = 1 ∧ x.jumpSkipped t0 t1 = { x with
      nextInstant := none, returnState := .opened, overrunCount := min (x.overrunCount + 1) 65535 } := by
  have hk : x.jumpSkips t0 t1 = 1 := by simp [jumpSkips, hn, hb, hr, hpassed, ht]
  rw [jumpSkipped, hk, if_neg Nat.one_ne_zero, if_pos ht]
  exact ⟨rfl, rfl⟩

theorem committed_of_oneshot {n : Time} (ht : x.trigger = .oneshot) (hn : x.nextInstant = some n) :
    x.committed now = { x with state := .queued, epochInstant := n, nextInstant := none, returnState := .opened } := by
  cases x
  subst ht hn
  rfl

theorem committed_of_periodic {n : Time} (ht : x.trigger = .periodic) (hn : x.nextInstant = some n) :
    x.committed now = { x with
      state := .queued, epochInstant := n, nextInstant := some (n + x.period.setWidth 48), returnState := .armed } := by
  cases x
  subst ht hn
  rfl

theorem period_add (n : Time) (p : BitVec 32) (j : Nat) :
    n + p.setWidth 48 + BitVec.ofNat 48 (j * p.toNat) = n + BitVec.ofNat 48 ((j + 1) * p.toNat) := by
  have hp : p.setWidth 48 = BitVec.ofNat 48 p.toNat := BitVec.eq_of_toNat_eq (by simp)
  rw [hp, Nat.add_mul, Nat.one_mul, Nat.add_comm, BitVec.ofNat_add, add_assoc]

/-- A PERIODIC group queued by the move, its later seal points passed over skipped (R38). -/
theorem jumpSkipped_committed {n : Time} (hmove : (t1 - t0).toNat < 2 ^ 47) (ht : x.trigger = .periodic) (hn : x.nextInstant = some n)
    (hp : x.period ≠ 0) :
    let k := (x.committed now).jumpSkips t0 t1
    let sealAt := fun i : Nat => n + BitVec.ofNat 48 (i * x.period.toNat) - x.guardTicks.setWidth 48
    (∀ j < k, passedOver t0 t1 (sealAt (j + 1)) = true) ∧ passedOver t0 t1 (sealAt (k + 1)) = false ∧
      (k ≠ 0 → atOrBefore t1 (sealAt (k + 1)) = false) ∧
      (x.committed now).jumpSkipped t0 t1 = { x with
        state := .queued, epochInstant := n, returnState := .armed
        nextInstant := some (n + BitVec.ofNat 48 ((k + 1) * x.period.toNat))
        overrunCount := if k = 0 then x.overrunCount else min (x.overrunCount + k) 65535 } := by
  have hc := committed_of_periodic (now := now) ht hn
  have h := jumpSkipped_periodic (x := x.committed now) (m := n + x.period.setWidth 48) hmove (by rw [hc]; rfl) (by rw [hc])
    (by rw [hc]; exact ht) (by rw [hc]) (by rw [hc]; exact hp)
  intro k sealAt
  have hperiod : (x.committed now).period = x.period := by rw [hc]
  have hguard : (x.committed now).guardTicks = x.guardTicks := by rw [hc]
  simp only [hperiod, hguard, period_add] at h
  obtain ⟨hupto, hafter, hlater, hskipped⟩ := h
  refine ⟨hupto, hafter, hlater, hskipped.trans ?_⟩
  simp only [k, hc]

/-- The group enters the commit queue in the move exactly where it becomes QUEUED in it. -/
theorem jumpQueues_eq (x : Group) (now t0 t1 : Time) :
    x.jumpQueues now t0 t1 = (x.state != .queued && (x.jumped now t0 t1).state == .queued) := by
  unfold jumpQueues jumped
  by_cases ht : x.trigger.timed = true
  · rw [if_pos ht, ht, Bool.true_and, jumpSkipped_state]
    have hsealed : (x.jumpSealed now t0 t1).state = .queued ↔ x.state = .queued := by
      unfold jumpSealed
      split
      · next h => simp [sealedAt, h.1]
      · rfl
    unfold jumpReady
    generalize x.jumpSealed now t0 t1 = y at hsealed
    by_cases hc : y.state = .sealed ∧ y.commitPassed t0 t1 = true
    · have hx : x.state ≠ .queued := fun hx => nomatch hc.1.symm.trans (hsealed.mpr hx)
      rw [jumpCommitted, if_pos hc, committed_state, hc.1, hc.2]
      simp [hx]
    · have hleft : (y.state == .sealed && y.commitPassed t0 t1) = false := by simpa using hc
      rw [jumpCommitted, if_neg hc, hleft]
      by_cases hx : x.state = .queued
      · simp [hx]
      · simpa [hx] using fun h => hx (hsealed.mp h)
  · have hno : x.trigger.timed = false := by simpa using ht
    rw [if_neg ht, hno]
    cases x.state <;> rfl

/-- A group queued in the move leaves no seal point behind the new TIME (R38, R40). -/
theorem returnSkips_jumped (hmove : (t1 - t0).toNat < 2 ^ 47) (hold : x.state ≠ .queued) (hnew : (x.jumped now t0 t1).state = .queued)
    (hguard : (x.jumped now t0 t1).trigger = .periodic → (x.jumped now t0 t1).guardTicks.toNat < (x.jumped now t0 t1).period.toNat) :
    (x.jumped now t0 t1).returnSkips t1 = 0 := by
  have hq : x.jumpQueues now t0 t1 = true := by
    rw [jumpQueues_eq, hnew]
    simpa using hold
  obtain ⟨⟨ht, hst⟩, hc⟩ : (x.trigger.timed = true ∧ (x.jumpSealed now t0 t1).state = .sealed) ∧
      (x.jumpSealed now t0 t1).commitPassed t0 t1 = true := by simpa [jumpQueues] using hq
  have hjumped : x.jumped now t0 t1 = ((x.jumpSealed now t0 t1).committed now).jumpSkipped t0 t1 := by
    rw [jumped, if_pos ht, jumpReady, jumpCommitted, if_pos ⟨hst, hc⟩]
  have htrigger : (x.jumpSealed now t0 t1).trigger = x.trigger := by
    unfold jumpSealed
    split <;> rfl
  rw [hjumped] at hguard ⊢
  rw [← htrigger] at ht
  generalize x.jumpSealed now t0 t1 = y at ht hst hc hguard
  obtain ⟨n, hn, hpassed⟩ : ∃ n, y.nextInstant = some n ∧ passedOver t0 t1 n = true := by
    simpa only [commitPassed, Option.any_eq_true] using hc
  cases htr : y.trigger with
  | cycle => simp [Trigger.timed, htr] at ht
  | manual => simp [Trigger.timed, htr] at ht
  | oneshot =>
    rw [committed_of_oneshot htr hn, jumpSkipped_of_zero (jumpSkips_of_still (.inr (.inl rfl)))]
    rfl
  | periodic =>
    have hfields : ((y.committed now).jumpSkipped t0 t1).trigger = .periodic ∧
        ((y.committed now).jumpSkipped t0 t1).guardTicks = y.guardTicks ∧
        ((y.committed now).jumpSkipped t0 t1).period = y.period := by
      rw [committed_of_periodic htr hn]
      unfold jumpSkipped
      split
      · exact ⟨htr, rfl, rfl⟩
      · dsimp only
        rw [if_neg (by rw [htr]; decide)]
        exact ⟨htr, rfl, rfl⟩
    obtain ⟨hper, hg, hp⟩ := hfields
    have hlt := hguard hper
    rw [hg, hp] at hlt
    have hp0 : y.period ≠ 0 := fun h => by
      rw [h] at hlt
      exact absurd hlt (Nat.not_lt_zero _)
    obtain ⟨-, hafter, hlater, hskipped⟩ := jumpSkipped_committed (now := now) hmove htr hn hp0
    have hahead : atOrBefore t1 (n + BitVec.ofNat 48 (((y.committed now).jumpSkips t0 t1 + 1) * y.period.toNat) -
        y.guardTicks.setWidth 48) = false := by
      by_cases hk : (y.committed now).jumpSkips t0 t1 = 0
      · rw [hk] at hafter ⊢
        have hpl := y.period.isLt
        rw [← Bool.not_eq_true, passedOver_iff] at hafter
        rw [passedOver_iff] at hpassed
        have hfrom : n + BitVec.ofNat 48 ((0 + 1) * y.period.toNat) - y.guardTicks.setWidth 48 - t0 =
            (n - t0) + BitVec.ofNat 48 ((0 + 1) * y.period.toNat) - y.guardTicks.setWidth 48 := by ring
        have hto : t1 - (n + BitVec.ofNat 48 ((0 + 1) * y.period.toNat) - y.guardTicks.setWidth 48) =
            (t1 - t0) - ((n - t0) + BitVec.ofNat 48 ((0 + 1) * y.period.toNat) - y.guardTicks.setWidth 48) := by ring
        rw [hfrom] at hafter
        unfold atOrBefore distance
        rw [hto, decide_eq_false_iff_not]
        generalize t1 - t0 = d at hafter hpassed hmove
        generalize n - t0 = e at hafter hpassed
        rw [BitVec.toNat_sub, BitVec.toNat_add, BitVec.toNat_ofNat, BitVec.toNat_setWidth] at hafter
        rw [BitVec.toNat_sub, BitVec.toNat_sub, BitVec.toNat_add, BitVec.toNat_ofNat, BitVec.toNat_setWidth]
        omega
      · exact hlater hk
    rw [hskipped]
    simp [returnSkips, passedAtReturn, sealPointOf, hahead]

end Group

end Sys2Proof.Machine
end

section
/-! PROOF. A forward TIME SET as one new table (O26). -/

namespace Sys2Proof.Machine

/-- The device at the new TIME, before the points passed over are reached (R82). -/
def State.atTime (s : State) (t1 : Time) : State := s.setTimebase { s.timebase with time := t1 }

/-- A forward move in ACTIVE, as one new group table (R38). -/
theorem moveTime_eq {s : State} {t1 : Time} (hmode : s.mode = .active) (hone : 1 ≤ (t1 - s.time).toNat)
    (hmove : (t1 - s.time).toNat < 2 ^ 47) :
    s.moveTime t1 = (s.atTime t1).put (fun g => (s.group g).jumped t1 s.time t1)
      (s.commitQueue ++ s.queuedNow (fun g => (s.group g).jumped t1 s.time t1))
      (allGroups.flatMap (fun g => jumpReport g t1 ((s.group g).jumpCount t1 s.time t1))) s.due := by
  have hforward : forwardMove s.time t1 = true := decide_eq_true ⟨hone, hmove⟩
  have hqueued : s.queuedNow (fun g => (s.group g).jumped t1 s.time t1) =
      allGroups.filter (fun g => (s.group g).jumpQueues t1 s.time t1) :=
    congrArg (allGroups.filter ·) (funext fun g => ((s.group g).jumpQueues_eq t1 s.time t1).symm)
  rw [State.moveTime, if_pos ⟨hmode, hforward⟩, hqueued]
  refine State.forGroups_pass (State.jumpGroup s.time t1) (fun g => (s.group g).jumped t1 s.time t1) _ _ (s.atTime t1) fun g b hb => ?_
  have htime : b.time = t1 := hb.time
  have hgroup : b.group g = s.group g := hb.group
  rw [State.jumpGroup_eq, hgroup, htime]

theorem timed_of_trigger {x : Trigger} (h : x = .oneshot ∨ x = .periodic) : x.timed = true := by
  rcases h with rfl | rfl <;> rfl

theorem jumped_of_not_timed {x : Group} {now t0 t1 : Time} (h : x.trigger = .manual ∨ x.trigger = .cycle) :
    x.jumped now t0 t1 = x ∧ x.jumpCount now t0 t1 = 0 := by
  have ht : ¬ x.trigger.timed = true := by rcases h with h | h <;> rw [h] <;> decide
  rw [Group.jumped, if_neg ht, Group.jumpCount, if_neg ht]
  exact ⟨rfl, rfl⟩

theorem jumped_of_still {x : Group} {now t0 t1 : Time} (h : x.nextInstant = none ∨ x.trigger = .manual ∨ x.trigger = .cycle ∨
    x.state = .off ∨ x.state = .opened) : x.jumped now t0 t1 = x ∧ x.jumpCount now t0 t1 = 0 := by
  by_cases ht : x.trigger.timed = true
  · rcases h with hn | hm | hc | hst | hst
    · refine Group.jumped_of_ready ht (Group.jumpReady_still ?_) (Group.jumpSkips_of_still (.inr (.inr (.inl hn))))
      have hs : x.sealPassed t0 t1 = false := by simp [Group.sealPassed, hn]
      have hc : x.commitPassed t0 t1 = false := by simp [Group.commitPassed, hn]
      by_cases harmed : x.state = .armed
      · exact .inl ⟨harmed, hs⟩
      · by_cases hsealed : x.state = .sealed
        · exact .inr (.inl ⟨hsealed, hc⟩)
        · exact .inr (.inr ⟨harmed, hsealed⟩)
    · exact jumped_of_not_timed (.inl hm)
    · exact jumped_of_not_timed (.inr hc)
    · exact Group.jumped_of_ready ht (Group.jumpReady_still (.inr (.inr (by simp [hst]))))
        (Group.jumpSkips_of_still (.inl (by simp [hst, GroupState.busy])))
    · exact Group.jumped_of_ready ht (Group.jumpReady_still (.inr (.inr (by simp [hst]))))
        (Group.jumpSkips_of_still (.inl (by simp [hst, GroupState.busy])))
  · rw [Group.jumped, if_neg ht, Group.jumpCount, if_neg ht]
    exact ⟨rfl, rfl⟩

/-- Settles O26. -/
theorem timeSetReachesWhatItPassesOver : Obligations.TimeSetReachesWhatItPassesOver := by
  intro s t1 hs hl hmode hf hone hmove
  have hmoved := moveTime_eq (s := s.framed .ok (s.writeSent 6)) (t1 := t1) hmode hone hmove
  generalize ha : (s.framed .ok (s.writeSent 6)).moveTime t1 = a at hmoved
  have hamode : a.mode = .active := by rw [hmoved]; exact hmode
  have hfollows := State.follows_takeNext (a := a) s hamode
  refine ⟨s.settle a, fun g => (s.group g).jumped t1 s.time t1, fun g => (s.group g).jumpCount t1 s.time t1, ?_, ?_, ?_, ?_⟩
  · have hlen : (beBytes 6 t1.toNat).length = 6 := beBytes_length _ _
    have hcheck : timeSetCommand.check (beBytes 6 t1.toNat) (s.framed s.link.lastResult (s.writeSent (beBytes 6 t1.toNat).length)) = none :=
      if_neg (by simp [State.framed, State.framedBits, hf])
    rw [exec_timeSet, frameHappening_write_accepted hl (by rw [hlen]; rfl) hcheck, hlen, ← ha]
    refine congrArg (fun b => Host.Outcome.next (s.settle b)) ?_
    show effectTimeSet _ _ = _
    rw [effectTimeSet, timeSet_value]
  · have htb := hfollows.timebase.trans (State.takesKeep_takeNext a).timebase
    rw [hmoved] at htb ⊢
    exact congrArg Timebase.time htb
  · refine State.queueFollows_of_event hs.1 hmode hamode (by rw [hmoved]; rfl) (by rw [hmoved]; rfl) (fun g => ?_) (by rw [hmoved]; rfl)
      (by rw [hmoved]; rfl) (fun g hold hnew hguard => Group.returnSkips_jumped hmove hold hnew hguard)
    rw [hmoved, State.put_group]
    rfl
  · intro passed
    refine ⟨fun g h => jumped_of_still h, fun g n hn htimed => ?_⟩
    intro x k sealAt sealed committed
    have ht : x.trigger.timed = true := timed_of_trigger htimed
    have hseal : passed (sealAt 0) ↔ x.sealPassed s.time t1 = true := by
      rw [Group.sealPassed_of_next hn, passedOver_iff]
      simp [sealAt, passed, Group.sealPointOf, x]
    have hseal_no : ¬ passed (sealAt 0) → x.sealPassed s.time t1 = false := fun h => Bool.eq_false_iff.mpr fun hc => h (hseal.mpr hc)
    have hcommit : passed n ↔ x.commitPassed s.time t1 = true := by
      rw [Group.commitPassed_of_next hn, passedOver_iff]
    have hcommit_no : ¬ passed n → x.commitPassed s.time t1 = false := fun h => Bool.eq_false_iff.mpr fun hc => h (hcommit.mpr hc)
    have hpassed : ∀ v, passed v ↔ passedOver s.time t1 v = true := fun v => (passedOver_iff _ _ _).symm
    have hcommitted : ∀ y : Group, y.trigger = x.trigger → y.nextInstant = x.nextInstant → y.period = x.period →
        y.guardTicks = x.guardTicks → y.overrunCount = x.overrunCount → x.jumpReady t1 s.time t1 = y.committed t1 → committed y := by
      intro y htr hnext hperiod hguard hcount hready
      have hjumped : x.jumped t1 s.time t1 = (y.committed t1).jumpSkipped s.time t1 ∧ k = (y.committed t1).jumpSkips s.time t1 := by
        simp only [k]
        rw [Group.jumped, if_pos ht, show (s.group g) = x from rfl, Group.jumpCount, if_pos ht, hready]
        exact ⟨rfl, rfl⟩
      refine ⟨fun hone => ?_, fun hper hp => ?_⟩
      · have hc := Group.committed_of_oneshot (x := y) (now := t1) (htr.trans hone) (hnext.trans hn)
        have hzero : (y.committed t1).jumpSkips s.time t1 = 0 := Group.jumpSkips_of_still (.inr (.inl (by rw [hc])))
        refine ⟨hjumped.1.trans ?_, hjumped.2.trans hzero⟩
        rw [Group.jumpSkipped_of_zero hzero, hc]
      · obtain ⟨hupto, hafter, -, hskipped⟩ := Group.jumpSkipped_committed (x := y) (now := t1) (t0 := s.time) (t1 := t1) (n := n) hmove
          (htr.trans hper) (hnext.trans hn) (by rw [hperiod]; exact hp)
        simp only [hpassed]
        rw [hjumped.2]
        simp only [hperiod, hguard] at hupto hafter
        refine ⟨hupto, Bool.eq_false_iff.mp hafter, hjumped.1.trans (hskipped.trans ?_)⟩
        simp only [hperiod, hcount]
    have hstill : x.jumpReady t1 s.time t1 = x → x.jumpSkips s.time t1 = 0 → x.jumped t1 s.time t1 = x ∧ k = 0 :=
      fun hready hk => Group.jumped_of_ready ht hready hk
    have hbusy : x.state.busy = true → x.jumpReady t1 s.time t1 = x := fun hb => Group.jumpReady_still (.inr (.inr (Group.busy_cases hb)))
    have hskips : x.state.busy = true → x.jumped t1 s.time t1 = x.jumpSkipped s.time t1 ∧ k = x.jumpSkips s.time t1 := fun hb => by
      simp only [k]
      rw [Group.jumped, if_pos ht, show (s.group g) = x from rfl, Group.jumpCount, if_pos ht, hbusy hb]
      exact ⟨rfl, rfl⟩
    refine ⟨fun hst hno => ?_, fun hst hsl hno => ?_, fun hst hsl hcm => ?_, fun hst hno => ?_, fun hst hcm => ?_, fun hb hno => ?_,
      fun hb hr hsl hone => ?_, fun hb hr hsl hper hp => ?_⟩
    · exact hstill (Group.jumpReady_still (.inl ⟨hst, hseal_no hno⟩)) (Group.jumpSkips_of_still (.inr (.inr (.inr (hseal_no hno)))))
    · exact Group.jumped_of_ready ht (Group.jumpReady_sealed hst (hseal.mp hsl) (hcommit_no hno)) (Group.jumpSkips_of_still (.inl rfl))
    · exact hcommitted sealed rfl rfl rfl rfl rfl (Group.jumpReady_sealed_committed hst (hseal.mp hsl) (hcommit.mp hcm))
    · exact hstill (Group.jumpReady_still (.inr (.inl ⟨hst, hcommit_no hno⟩)))
        (Group.jumpSkips_of_still (.inl (by rw [hst]; rfl)))
    · exact hcommitted x rfl rfl rfl rfl rfl (Group.jumpReady_committed hst (hcommit.mp hcm))
    · exact hstill (hbusy hb) (Group.jumpSkips_of_still (hno.elim (fun h => .inr (.inl h)) (fun h => .inr (.inr (.inr (hseal_no h))))))
    · obtain ⟨hjumped, hk⟩ := hskips hb
      obtain ⟨hkone, hskipped⟩ := Group.jumpSkipped_oneshot hb hr hone hn (by rw [← Group.sealPassed_of_next hn]; exact hseal.mp hsl)
      exact ⟨hjumped.trans hskipped, hk.trans hkone⟩
    · obtain ⟨hjumped, hk⟩ := hskips hb
      obtain ⟨hupto, hafter, -, hskipped⟩ := Group.jumpSkipped_periodic hmove hb hr hper hn hp
      have hpos : x.jumpSkips s.time t1 ≠ 0 := fun hzero => by
        rw [hzero, ← Bool.not_eq_true, ← hpassed] at hafter
        exact hafter hsl
      simp only [hpassed]
      rw [hk]
      rw [if_neg hpos] at hskipped
      exact ⟨Nat.one_le_iff_ne_zero.mpr hpos, hupto, Bool.eq_false_iff.mp hafter, hjumped.trans hskipped⟩

end Sys2Proof.Machine
end

section
/-! PROOF. GROUP DISARM, GROUP RETRY (O35) and GROUP COMMIT NOW (O36). -/

namespace Sys2Proof.Machine

namespace State
variable {s a : State}

/-! ## One take that asks for a step, in any mode -/

/-- Group `g` has been taken with a step to ask for; `rest` waits behind it (R58). -/
structure TakenWith (a : State) (g : GroupNum) (rest : List GroupNum) (kind : DrainKind) (step : Step) (q : Request) (t : State) :
    Prop where
  serves : t.serves g kind step q
  queue : t.commitQueue = rest
  taken : t.group g = { a.group g with state := .draining, progress := (a.group g).progress.taken a.time }
  others : ∀ h, h ≠ g → t.group h = a.group h
  port : t.port = a.port
  mode : t.mode = a.mode
  link : t.link = a.link
  reports : ∀ (s : State) (bs : List RecordBody), Reports s a bs → Reports s t bs

theorem settle_take_step (before : State) (hmode : a.mode ≠ .resetting) (he : a.engine = none) {g : GroupNum} {rest : List GroupNum}
    (hq : a.commitQueue = g :: rest) {kind : DrainKind} {step : Step} (hstep : (a.group g).takeOutcome = .step kind step) {q : Request}
    (hr : (a.group g).stepRequest kind step = q) : TakenWith a g rest kind step q (before.settle a) := by
  have htake := takeNext_of_step hmode he hq hstep
  have hplace : ((a.taken g rest).group g).stepRequest kind step = q := by
    rw [taken_group_self, ← hr]
    cases step <;> rfl
  have hfollows : ((a.taken g rest).requestStep g kind step).Follows (before.settle a) := by
    rw [settle_takeNext, htake]
    refine follows_settle before ?_ ?_ ?_
    · simp [canTake, requestStep_eq]
    · simp [flushDone, requestStep_eq]
    · simp [softResetDone, requestStep_eq, taken, hmode]
  refine ⟨⟨?_, ?_⟩, hfollows.commitQueue, ?_, fun h hh => ?_, hfollows.port, hfollows.mode, hfollows.link, fun s bs h => hfollows.reports h⟩
  · exact hfollows.engine { group := g, kind := kind, step := step, status := .requested } rfl
  · exact hfollows.drain q (.inl (congrArg some hplace))
  · exact (hfollows.group g).trans (a.taken_group_self g rest)
  · refine (hfollows.group h).trans ?_
    exact group_setGroup_ne a _ hh

/-- A group put at the tail of the queue. -/
theorem requeue_eq (g : GroupNum) : s.requeue g = { s with
    groups := s.groups.set g { s.group g with state := .queued }, commitQueue := s.commitQueue ++ [g] } := rfl

end State

/-! ## GROUP DISARM (R47) and GROUP RETRY (R66) -/

theorem exec_groupDisarm (ev : FrameEvent) (s : State) : exec (.groupDisarm ev) s = frameHappening s groupDisarmCommand ev := rfl

theorem exec_groupRetry (ev : FrameEvent) (s : State) : exec (.groupRetry ev) s = frameHappening s groupRetryCommand ev := rfl

theorem checkStalled_eq (s : State) (g : GroupNum) (r : Result) (sent : List Byte) :
    checkStalled [numberByte g] (s.framed r sent) = if (s.group g).state = .stalled then none else some .state := by
  rw [checkStalled, checkGroup_numberByte]
  rfl

theorem groupDisarm_outcome {s : State} {g : GroupNum} (hs : Settled s) (hl : LinkReady s)
    (hmode : s.mode = .quiescing → (s.group g).state ≠ .armed) :
    exec (.groupDisarm (.whole [numberByte g])) s =
      if (s.group g).state = .armed then
        .next ((s.framed .ok (s.writeSent 1)).setGroup g { s.group g with state := .opened, nextInstant := none })
      else if (s.group g).state = .opened then .next (s.framed .ok (s.writeSent 1))
      else .next (s.framed .state (s.writeSent 1)) := by
  have hsettled := State.settled_framed hs .ok (s.writeSent 1)
  have hcheck : groupDisarmCommand.check [numberByte g] (s.framed s.link.lastResult (s.writeSent 1)) =
      match (s.group g).state with
      | .armed | .opened => none
      | .off | .sealed | .queued | .draining | .stalled => some .state := checkGroup_numberByte g [] _
  have heffect : groupDisarmCommand.effect [numberByte g] (s.framed .ok (s.writeSent 1)) =
      if (s.group g).state = .armed then
        (s.framed .ok (s.writeSent 1)).setGroup g { s.group g with state := .opened, nextInstant := none }
      else s.framed .ok (s.writeSent 1) := onGroup_numberByte g [] _ _
  rw [exec_groupDisarm]
  split
  case isTrue harmed =>
    rw [if_pos harmed] at heffect
    rw [harmed] at hcheck
    exact frameHappening_write_calm hl rfl hcheck heffect (State.Settled.setGroup hsettled (fun hm => absurd harmed (hmode hm)))
  case isFalse harmed =>
    rw [if_neg harmed] at heffect
    split
    case isTrue hopened =>
      rw [hopened] at hcheck
      exact frameHappening_write_calm hl rfl hcheck heffect hsettled
    case isFalse hopened =>
      refine frameHappening_write_refused hs hl rfl (hcheck.trans ?_)
      cases hst : (s.group g).state with
      | armed => exact absurd hst harmed
      | opened => exact absurd hst hopened
      | _ => rfl

theorem groupRetry_accepted {s : State} {g : GroupNum} (hl : LinkReady s) (hst : (s.group g).state = .stalled) :
    exec (.groupRetry (.whole [numberByte g])) s = .next (s.settle ((s.framed .ok (s.writeSent 1)).requeue g)) := by
  have heffect : groupRetryCommand.effect [numberByte g] (s.framed .ok (s.writeSent 1)) = (s.framed .ok (s.writeSent 1)).requeue g :=
    onGroup_numberByte g [] _ _
  rw [exec_groupRetry, frameHappening_write_accepted hl rfl ((checkStalled_eq s g _ _).trans (if_pos hst))]
  exact congrArg (fun b => Host.Outcome.next (s.settle b)) heffect

/-- The step that an IDLE engine asks for again (R66). -/
theorem settle_requeue {s : State} {g : GroupNum} (hs : Settled s) (hmode : s.mode ≠ .resetting) (he : s.engine = none)
    (hb : (s.group g).progress.begun = true) {kind : DrainKind} {step : Step} (hstep : (s.group g).takeOutcome = .step kind step)
    {q : Request} (hr : (s.group g).stepRequest kind step = q) :
    let t := s.settle ((s.framed .ok (s.writeSent 1)).requeue g)
    t.serves g kind step q ∧ t.commitQueue = [] ∧ t.group g = { s.group g with state := .draining } ∧
      (∀ h, h ≠ g → t.group h = s.group h) ∧ t.link = (s.framed .ok (s.writeSent 1)).link ∧ Reports s t [] := by
  have hqueue : ((s.framed .ok (s.writeSent 1)).requeue g).commitQueue = [g] := by
    show s.commitQueue ++ [g] = [g]
    rw [State.queue_nil_of_idle hs.1 hmode he, List.nil_append]
  have hself : ((s.framed .ok (s.writeSent 1)).requeue g).group g = { s.group g with state := .queued } :=
    State.group_setGroup_self (s := s.framed .ok (s.writeSent 1)) ..
  have h := State.settle_take_step s (a := (s.framed .ok (s.writeSent 1)).requeue g) hmode he hqueue (kind := kind) (step := step)
    (by rw [hself]; exact hstep) (q := q) (by rw [hself, ← hr]; cases step <;> rfl)
  refine ⟨h.serves, h.queue, h.taken.trans ?_, fun i hi => (h.others i hi).trans ?_, h.link, h.reports s [] (Reports.none rfl)⟩
  · rw [hself, progress_taken_of_begun hb]
  · exact State.group_setGroup_ne (s.framed .ok (s.writeSent 1)) _ hi

/-- Settles O35. -/
theorem groupDisarmAndRetryActByState : Obligations.GroupDisarmAndRetryActByState := by
  intro s g hs hl
  refine ⟨groupDisarm_outcome hs hl, fun hst => ?_, fun hst hengine => ?_, ?_⟩
  · exact frameHappening_write_refused hs hl rfl ((checkStalled_eq s g _ _).trans (if_neg hst))
  · rw [groupRetry_accepted hl hst]
    exact congrArg _ (State.settle_of_settled _ _
      (State.Settled.of_busy_engine (State.settled_framed hs .ok (s.writeSent 1)) hengine rfl rfl rfl rfl rfl rfl))
  · intro x retried hst hengine hb
    have hretried : ∀ kind step q, x.takeOutcome = .step kind step → x.stepRequest kind step = q → retried kind step q := by
      intro kind step q ho hr
      obtain ⟨hserves, hqueue, hself, hothers, hlink, -⟩ := settle_requeue hs hl.2.1 hengine hb ho hr
      exact ⟨_, groupRetry_accepted hl hst, hserves, hqueue, hself, hothers, hlink⟩
    refine ⟨fun m hm ha => ?_, fun m hm ha hf => ?_, fun m hm ha hf => ?_, fun e tail ho ha hf => ?_⟩
    · exact hretried _ _ _ (if_pos ha) (stepRequest_abandonEnd hm)
    · exact hretried _ _ _ (takeOutcome_of_fault ha hb hf) (stepRequest_start hm _)
    · exact hretried _ _ _ (takeOutcome_of_fault ha hb hf) (stepRequest_finish hm)
    · exact hretried _ _ _ (takeOutcome_of_fault ha hb hf) (stepRequest_entry ho _)

end Sys2Proof.Machine
end

section
/-! PROOF. GROUP COMMIT NOW (O36), GROUP DISCARD and GROUP OFF (O37). -/

namespace Sys2Proof.Machine

namespace State
variable {s a : State}

/-- The take of the only queued group, whose epoch completes at it, in ACTIVE (R58, R62, R40). -/
theorem settle_take_completes (hmode : a.mode = .active) (he : a.engine = none) {g : GroupNum} (hq : a.commitQueue = [g])
    (hx : (a.group g).CompletesAtTake) {bs : List RecordBody} (hr : a.records = bs.foldl RecordUnit.handOver s.records) :
    let t := s.settle a
    let y := ((a.group g).takenAt a.time).epochDone
    t.engine = none ∧ t.commitQueue = [] ∧ t.link = a.link ∧ t.group g = y.onReturn a.time ∧ (∀ h, h ≠ g → t.group h = a.group h) ∧
      Reports s t (bs ++ (((a.group g).takenAt a.time).doneReport g 0 a.time ++ jumpReport g a.time (y.returnSkips a.time))) := by
  intro t y
  have htakes := takesDone_timebase (a := a) (v := a.group) (done := [g]) (rest := []) hmode he (fun _ => rfl) hq (by simp)
    (fun h hh => by rw [List.mem_singleton.mp hh]; exact hx) (fun _ hh => nomatch hh)
  have hfollows := follows_takeNext (a := a) s hmode
  have hafter : a.afterTakes [g] g = y := if_pos List.mem_cons_self
  refine ⟨hfollows.idle (htakes.idle rfl), hfollows.commitQueue.trans htakes.queue, hfollows.link.trans (takesKeep_takeNext a).link,
    ?_, fun h hh => ?_, ?_⟩
  · rw [hfollows.group, htakes.returned g (.inl List.mem_cons_self), hafter]
  · rw [hfollows.group, htakes.others h (by simpa using hh) List.not_mem_nil (fun hc => nomatch hc)]
  · have hjumps : allGroups.flatMap (fun h => lateAt none h ++ if h ∈ [g] ∨ h ∈ ([] : List GroupNum) then
        jumpReport h a.time ((a.afterTakes [g] h).returnSkips a.time) else []) = jumpReport g a.time (y.returnSkips a.time) := by
      refine flatMap_only (g := g) _ ?_ (fun i hi => ?_)
      · rw [if_pos (.inl List.mem_cons_self), hafter]
        rfl
      · rw [if_neg (by simp [hi])]
        rfl
    have hends : a.takeReports [g] = ((a.group g).takenAt a.time).doneReport g 0 a.time := by
      rw [takeReports, List.flatMap_cons, List.flatMap_nil, List.append_nil]
    have hrecords := htakes.records
    rw [hjumps, hends, hr, ← List.foldl_append] at hrecords
    exact hfollows.reports ⟨congrArg RecordUnit.queue hrecords, congrArg RecordUnit.lostCount hrecords⟩

end State

/-! ## GROUP COMMIT NOW (R48) -/

theorem exec_groupCommitNow (ev : FrameEvent) (s : State) : exec (.groupCommitNow ev) s = frameHappening s groupCommitNowCommand ev := rfl

theorem openOrArmed_iff (st : GroupState) : st.openOrArmed = true ↔ st = .opened ∨ st = .armed := by
  cases st <;> simp [GroupState.openOrArmed]

theorem checkCommitNow_eq (s : State) (g : GroupNum) (r : Result) (sent : List Byte) :
    checkGroupCommitNow [numberByte g] (s.framed r sent) =
      if s.mode ≠ .active ∨ ((s.group g).state ≠ .opened ∧ (s.group g).state ≠ .armed) then some .state else none := by
  have hcheck : checkGroupCommitNow [numberByte g] (s.framed r sent) =
      if s.mode ≠ .active then some .state else if (s.group g).state.openOrArmed = true then none else some .state :=
    checkGroup_numberByte g [] _
  rw [hcheck]
  by_cases hmode : s.mode = .active
  · by_cases hst : (s.group g).state.openOrArmed = true
    · have hno : ¬ (s.mode ≠ .active ∨ ((s.group g).state ≠ .opened ∧ (s.group g).state ≠ .armed)) := by
        rw [openOrArmed_iff] at hst
        tauto
      rw [if_neg hno, if_neg (not_not_intro hmode), if_pos hst]
    · have hyes : s.mode ≠ .active ∨ ((s.group g).state ≠ .opened ∧ (s.group g).state ≠ .armed) := by
        rw [openOrArmed_iff] at hst
        tauto
      rw [if_pos hyes, if_neg (not_not_intro hmode), if_neg hst]
  · rw [if_pos hmode, if_pos (.inl hmode)]

/-- The device with group `g` committed at once (R48). -/
def State.commitsNow (s : State) (g : GroupNum) : State := { s with
  groups := s.groups.set g ((s.group g).commitNow s.time), commitQueue := s.commitQueue ++ [g] }

theorem groupCommitNow_accepted {s : State} {g : GroupNum} (hl : LinkReady s) (hmode : s.mode = .active)
    (hst : (s.group g).state = .opened ∨ (s.group g).state = .armed) :
    exec (.groupCommitNow (.whole [numberByte g])) s = .next (s.settle ((s.framed .ok (s.writeSent 1)).commitsNow g)) := by
  have heffect : groupCommitNowCommand.effect [numberByte g] (s.framed .ok (s.writeSent 1)) =
      (s.framed .ok (s.writeSent 1)).commitsNow g := onGroup_numberByte g [] _ _
  have hcheck : groupCommitNowCommand.check [numberByte g] (s.framed s.link.lastResult (s.writeSent 1)) = none :=
    (checkCommitNow_eq s g _ _).trans (if_neg (by tauto))
  rw [exec_groupCommitNow, frameHappening_write_accepted hl rfl hcheck]
  exact congrArg (fun b => Host.Outcome.next (s.settle b)) heffect

/-- Settles O36. -/
theorem groupCommitNowQueuesTheGroup : Obligations.GroupCommitNowQueuesTheGroup := by
  intro s g hs hl
  refine ⟨fun h => frameHappening_write_refused hs hl rfl ((checkCommitNow_eq s g _ _).trans (if_pos h)), fun hmode hst => ?_⟩
  intro y
  have hexec := groupCommitNow_accepted hl hmode hst
  refine ⟨fun hengine => ?_, fun hengine hb ha => ?_⟩
  · rw [hexec]
    exact congrArg _ (State.settle_of_settled _ _
      (State.Settled.of_busy_engine (State.settled_framed hs .ok (s.writeSent 1)) hengine rfl rfl rfl rfl rfl rfl))
  · generalize hdef : (s.framed .ok (s.writeSent 1)).commitsNow g = a at hexec
    have hqueue : a.commitQueue = [g] := by
      rw [← hdef]
      show s.commitQueue ++ [g] = [g]
      rw [State.queue_nil_of_idle hs.1 hl.2.1 hengine, List.nil_append]
    have hself : a.group g = y := by
      rw [← hdef]
      exact State.group_setGroup_self (s.framed .ok (s.writeSent 1)) ..
    have hother : ∀ h, h ≠ g → a.group h = s.group h := fun h hh => by
      rw [← hdef]
      exact State.group_setGroup_ne (s.framed .ok (s.writeSent 1)) _ hh
    have hidle : a.engine = none := by rw [← hdef]; exact hengine
    have hactive : a.mode = .active := by rw [← hdef]; exact hmode
    have htime : a.time = s.time := by rw [← hdef]; rfl
    have hrecords : a.records = ([] : List RecordBody).foldl RecordUnit.handOver s.records := by rw [← hdef]; rfl
    have htaken : ({ y with state := .draining, progress := y.progress.taken s.time } : Group) = y.takenAt s.time := by
      rw [progress_taken_of_not_begun hb]
      rfl
    have hstarts : ∀ step q, y.takeOutcome = .step .epoch step → y.stepRequest .epoch step = q →
        State.TakenWith a g [] .epoch step q (s.settle a) := fun step q ho hr =>
      State.settle_take_step s (by rw [hactive]; decide) hidle hqueue (by rw [hself]; exact ho) (by rw [hself]; exact hr)
    have hserves : ∀ step q, State.TakenWith a g [] .epoch step q (s.settle a) →
        (s.settle a).serves g .epoch step q ∧ (s.settle a).group g = y.takenAt s.time := fun step q h =>
      ⟨h.serves, h.taken.trans (by rw [hself, htime, htaken])⟩
    refine ⟨s.settle a, hexec, ?_⟩
    by_cases hdone : y.marker = none ∧ y.outgoing = []
    · obtain ⟨hm, ho⟩ := hdone
      obtain ⟨hnone, hq, -, hreturn, hothers, hreports⟩ :=
        State.settle_take_completes (s := s) hactive hidle hqueue (by rw [hself]; exact ⟨hb, ha, hm, ho⟩) hrecords
      rw [hself, htime] at hreturn hreports
      refine ⟨hq, fun h hh => (hothers h hh).trans (hother h hh), (fun m hm' => nomatch hm.symm.trans hm'),
        (fun e tail ho' => nomatch ho.symm.trans ho'), fun _ _ => ⟨hnone, _, ?_, hreports⟩⟩
      rw [hreturn]
      exact returned_onReturn s.time _
    · obtain ⟨step, hout, hstart, hentry⟩ := takeOutcome_starts (x := y) ⟨hb, ha, hdone⟩
      have h := hstarts step _ hout rfl
      refine ⟨h.queue, fun i hi => (h.others i hi).trans (hother i hi), fun m hm => ?_, fun e tail ho hm => ?_,
        fun hm ho => absurd ⟨hm, ho⟩ hdone⟩
      · obtain rfl := hstart m hm
        rw [← stepRequest_start hm .epoch]
        exact hserves _ _ h
      · obtain rfl := hentry e tail ho hm
        rw [← stepRequest_entry ho .epoch]
        exact hserves _ _ h

/-! ## GROUP DISCARD (R50) -/

theorem exec_groupDiscard (ev : FrameEvent) (s : State) : exec (.groupDiscard ev) s = frameHappening s groupDiscardCommand ev := rfl

theorem exec_groupOff (ev : FrameEvent) (s : State) : exec (.groupOff ev) s = frameHappening s groupOffCommand ev := rfl

theorem checkDiscard_eq (s : State) (g : GroupNum) (r : Result) (sent : List Byte) :
    checkGroupDiscard [numberByte g] (s.framed r sent) = if (s.group g).state = .off then some .state else none :=
  checkGroup_numberByte g [] _

/-- Releases from the filling list while no write is held (R9). -/
theorem releaseFillings_of_not_held (g : GroupNum) (n : Nat) : ∀ s : State, (∀ tk h r k, s.port ≠ .held tk h r k) →
    s.releaseFillings g n = s.setGroup g { s.group g with filling := (s.group g).filling.drop n } := by
  induction n with
  | zero =>
    intro s _
    have hself : s.setGroup g (s.group g) = s := by
      rw [State.setGroup, State.group, Table8.set_get_self]
    exact hself.symm
  | succ n ih =>
    intro s hport
    have hfirst : s.releaseFilling g = s.setGroup g { s.group g with filling := (s.group g).filling.tail } :=
      reconsiderHeld_of_not_held hport
    have hrest := ih (s.releaseFilling g) (by rw [hfirst]; exact hport)
    rw [State.releaseFillings, hrest, hfirst, State.group_setGroup_self, State.setGroup_setGroup]
    simp only [List.drop_tail]

theorem groupDiscard_outcome {s : State} {g : GroupNum} (hs : Settled s) (hl : LinkReady s) (hport : ∀ tk h r k, s.port ≠ .held tk h r k)
    (hflush : s.mode = .quiescing → (s.group g).state = .opened → (s.group g).filling = []) :
    exec (.groupDiscard (.whole [numberByte g])) s =
      if (s.group g).state = .off then .next (s.framed .state (s.writeSent 1))
      else .next ((s.framed .ok (s.writeSent 1)).setGroup g { s.group g with filling := [] }) := by
  rw [exec_groupDiscard]
  split
  case isTrue hoff => exact frameHappening_write_refused hs hl rfl ((checkDiscard_eq s g _ _).trans (if_pos hoff))
  case isFalse hoff =>
    have heffect : groupDiscardCommand.effect [numberByte g] (s.framed .ok (s.writeSent 1)) =
        (s.framed .ok (s.writeSent 1)).setGroup g { s.group g with filling := [] } := by
      refine (onGroup_numberByte g [] _ _).trans ((releaseFillings_of_not_held g _ (s.framed .ok (s.writeSent 1)) hport).trans ?_)
      rw [List.drop_length]
      rfl
    refine frameHappening_write_calm hl rfl ((checkDiscard_eq s g _ _).trans (if_neg hoff)) heffect
      (State.Settled.setGroup (State.settled_framed hs .ok (s.writeSent 1)) (fun hmode hflushed => ?_))
    rw [flushed_iff] at hflushed
    rcases hflushed with hst | ⟨hst, -, ho⟩
    · exact absurd hst hoff
    · exact (flushed_iff _).mpr (.inr ⟨hst, hflush hmode hst, ho⟩)

/-! ## GROUP OFF (R52) -/

theorem checkOff_eq (s : State) (g : GroupNum) (r : Result) (sent : List Byte) :
    checkGroupOff [numberByte g] (s.framed r sent) =
      if ((s.group g).state = .opened ∨ (s.group g).state = .armed) ∧ (s.group g).occupancy = 0 then none else some .state := by
  have hcheck : checkGroupOff [numberByte g] (s.framed r sent) =
      if ((s.group g).state.openOrArmed && (s.group g).filling.isEmpty && (s.group g).outgoing.isEmpty) = true then none
      else some .state := checkGroup_numberByte g [] _
  have hlists : (s.group g).occupancy = 0 ↔ (s.group g).filling = [] ∧ (s.group g).outgoing = [] := by
    rw [Group.occupancy, Nat.add_eq_zero_iff, List.length_eq_zero_iff, List.length_eq_zero_iff]
  have hcond : ((s.group g).state.openOrArmed && (s.group g).filling.isEmpty && (s.group g).outgoing.isEmpty) = true ↔
      ((s.group g).state = .opened ∨ (s.group g).state = .armed) ∧ (s.group g).occupancy = 0 := by
    rw [Bool.and_eq_true, Bool.and_eq_true, openOrArmed_iff, List.isEmpty_iff, List.isEmpty_iff, hlists, and_assoc]
  rw [hcheck]
  exact if_congr hcond rfl rfl

namespace State
variable {s a : State}

theorem completeFlush_calm (hdone : a.flushDone = true) : a.completeFlush.canTake = false ∧ a.completeFlush.flushDone = false := by
  obtain ⟨-, -, hqueue, -⟩ := flushDone_parts hdone
  rcases (a.setMode .bypass).passHeld_cases with ⟨-, heq⟩ | ⟨t, q, -, heq⟩
  · rw [completeFlush, heq]
    exact ⟨(canTake_eq_false_iff _).mpr (.inr (.inl hqueue)), by simp [flushDone]⟩
  · rw [completeFlush, heq]
    exact ⟨(canTake_eq_false_iff _).mpr (.inr (.inl hqueue)), by simp [flushDone]⟩

/-- A flush that is complete completes first of all (R171). -/
theorem settle_completeFlush (before : State) (hcan : a.canTake = false) (hdone : a.flushDone = true) :
    before.settle a = before.settle a.completeFlush := by
  obtain ⟨hcan', hdone'⟩ := completeFlush_calm hdone
  rw [settle, settle, takeNext_of_not_canTake a hcan, takeNext_of_not_canTake _ hcan', settleFlush_of_not_done _ hdone', settleFlush,
    if_pos hdone]

end State

/-- The device with group `g` OFF and its held write passed to memory (R22, R52). -/
theorem turnOff_held {s : State} {tk : Taken} {g : GroupNum} {r : HoldReason} {k : Nat} (hport : s.port = .held tk g r k) :
    s.turnOff g = { s with
      groups := s.groups.set g { s.group g with state := .off, nextInstant := none }
      port := .passing { tk with disposition := .pass }
      arbiter := { s.arbiter with initiatorPlace := some (requestOf tk.tx) } } := by
  have hfor : s.port.heldFor g = true := by simp [hport, Port.heldFor]
  unfold State.turnOff
  rw [if_pos hfor]
  exact State.passHeld_eq (s.setGroup g { s.group g with state := .off, nextInstant := none }) tk g r k hport

theorem groupOff_accepted {s : State} {g : GroupNum} (hl : LinkReady s)
    (hst : (s.group g).state = .opened ∨ (s.group g).state = .armed) (hempty : (s.group g).occupancy = 0) :
    exec (.groupOff (.whole [numberByte g])) s = .next (s.settle ((s.framed .ok (s.writeSent 1)).turnOff g)) := by
  have heffect : groupOffCommand.effect [numberByte g] (s.framed .ok (s.writeSent 1)) = (s.framed .ok (s.writeSent 1)).turnOff g :=
    onGroup_numberByte g [] _ _
  rw [exec_groupOff, frameHappening_write_accepted hl rfl ((checkOff_eq s g _ _).trans (if_pos ⟨hst, hempty⟩))]
  exact congrArg (fun b => Host.Outcome.next (s.settle b)) heffect

/-- Settles O37. -/
theorem groupDiscardAndOff : Obligations.GroupDiscardAndOff := by
  refine ⟨fun s g hs hl hport hflush => groupDiscard_outcome hs hl hport hflush, fun s g hs hl => ⟨fun h => ?_, fun hst hempty => ?_⟩⟩
  · exact frameHappening_write_refused hs hl rfl ((checkOff_eq s g _ _).trans (if_neg h))
  intro y
  rw [groupOff_accepted hl hst hempty]
  refine ⟨fun hfree hmode => ?_, fun tk r k hport => ?_⟩
  · have hoff : (s.framed .ok (s.writeSent 1)).turnOff g = (s.framed .ok (s.writeSent 1)).setGroup g y := if_neg (by
      rw [show (s.framed .ok (s.writeSent 1)).port = s.port from rfl, hfree]
      decide)
    rw [hoff]
    exact congrArg _ (State.settle_of_settled _ _
      (State.Settled.setGroup (State.settled_framed hs .ok (s.writeSent 1)) (fun hm => absurd hm hmode)))
  · have hoff := turnOff_held (s := s.framed .ok (s.writeSent 1)) (g := g) hport
    generalize ha : (s.framed .ok (s.writeSent 1)).turnOff g = a at hoff
    have hcan : a.canTake = false := by
      rw [hoff]
      exact hs.1.1
    have hnot : a.mode ≠ .resetting := by
      rw [hoff]
      exact hl.2.1
    obtain ⟨w, hfollows, hgroups, hport', harbiter, hlink⟩ : ∃ w : State, w.Follows (s.settle a) ∧ w.groups = a.groups ∧
        w.port = a.port ∧ w.arbiter = a.arbiter ∧ w.link = a.link := by
      by_cases hdone : a.flushDone = true
      · have hpass : a.completeFlush = a.setMode .bypass := State.passHeld_of_not_held _ (fun tk' h' r' k' hp => by
          rw [hoff] at hp
          exact nomatch hp)
        obtain ⟨hcan', hdone'⟩ := State.completeFlush_calm hdone
        refine ⟨a.completeFlush, ?_, by rw [hpass]; rfl, by rw [hpass]; rfl, by rw [hpass]; rfl, by rw [hpass]; rfl⟩
        rw [State.settle_completeFlush s hcan hdone]
        exact State.follows_settle s hcan' hdone' (by simp [State.softResetDone, hpass])
      · exact ⟨a, State.follows_settle s hcan (by simpa using hdone) (by simp [State.softResetDone, hnot]), rfl, rfl, rfl, rfl⟩
    refine ⟨s.settle a, rfl, ?_, ?_, ?_, ?_⟩
    · rw [State.group, hfollows.groups, hgroups, hoff]
      exact Table8.get_set_self _ _ _
    · rw [hfollows.port, hport', hoff]
    · refine hfollows.initiator _ (.inl ?_)
      rw [harbiter, hoff]
      rfl
    · rw [hfollows.link, hlink, hoff]
      rfl

end Sys2Proof.Machine
end

section
/-! PROOF. The held write placed by a release (O49): refuted by the last ENTRY of a group that is SEALED while the drain engine serves
it. No step reaches such a device, but the statement asks for no law that excludes it: its clause for the group's own write leaves
out the LATE record of a write placed in SEALED (R35). -/

namespace Sys2Proof.Machine

/-- A write of one word, held for room. -/
def heldWriteTaken : Taken :=
  { tx := { addr := 0, dir := .write, lanes := 0xF#4, data := 1 }, takeTime := 0, disposition := .pass, window := none }

/-- A SEALED group with one outgoing entry that fills its quota, which reports its late writes. -/
def sealedFullGroup : Group :=
  { Group.initial with
    state := .sealed, quota := 1, reportLates := true, outgoing := [{ addr := 4, data := 2, lanes := 0xF#4 }] }

/-- The device whose drain engine has the last ENTRY of group 0 outstanding while the group is SEALED and a write is held for it. -/
def sealedUnderDrain : State :=
  { State.reset with
    mode := .active, port := .held heldWriteTaken 0 .room 0, groups := State.reset.groups.set 0 sealedFullGroup
    engine := some { group := 0, kind := .epoch, step := .entry, status := .outstanding }
    arbiter := { Arbiter.initial with outstanding := some (.drain, { addr := 4, dir := .write, lanes := 0xF#4, data := 2 }) }
    records := { RecordUnit.initial with enabled := true, capacity := 16 }, irq := irqCondition
      { RecordUnit.initial with enabled := true, capacity := 16 } Link.initial.flags }

theorem sealedUnderDrain_settled : Settled sealedUnderDrain := by
  refine ⟨⟨?_, ?_, ?_, ?_, ?_⟩, rfl⟩ <;> decide

/-- The response hands over the LATE record of the held write, and no more. -/
theorem sealedUnderDrain_reports :
    ((sealedUnderDrain.settle (sealedUnderDrain.drainResponse true)).records.queue.map (·.body)) = [.late 0 0 0 0xF#4 0] := by
  decide

/-- Refutes O49. -/
theorem not_releasesPlaceTheHeldWrite : ¬ Obligations.ReleasesPlaceTheHeldWrite := by
  intro h
  obtain ⟨-, -, -, -, hdrain, -⟩ := h sealedUnderDrain heldWriteTaken 0 0 rfl sealedUnderDrain_settled ⟨rfl, by decide, rfl⟩ rfl
    (by decide)
  obtain ⟨-, hlast⟩ := hdrain { group := 0, kind := .epoch, step := .entry, status := .outstanding } rfl rfl rfl rfl
    { addr := 4, data := 2, lanes := 0xF#4 } [] rfl
  obtain ⟨-, hown⟩ := hlast rfl rfl rfl
  obtain ⟨t, k, hexec, -, -, -, -, hqueue, -⟩ := hown rfl (by decide)
  rw [exec_drainStepResponse rfl] at hexec
  obtain rfl := Host.Outcome.next.inj hexec
  have hbodies := (congrArg (List.map QueuedRecord.body) hqueue).symm.trans sealedUnderDrain_reports
  by_cases hk : k = 0
  · subst hk
    exact nomatch hbodies
  · rw [jumpReport_pos hk] at hbodies
    exact nomatch hbodies

end Sys2Proof.Machine
end

section
/-! PROOF. GROUP ABANDON with no write held (O38), and the beginning of the flush (O21). -/

namespace Sys2Proof.Machine

/-! ## A group in the flush (R167, R169) -/

/-- The group after its epoch in QUIESCING (R169). -/
def Group.afterFlush (x : Group) (now : Time) : Group := if x.filling = [] then x.disarmed else x.flushQueued now

namespace State
variable {s a : State}

theorem setGroup_eq_update (g : GroupNum) (y : Group) : s.setGroup g y = s.update g y s.commitQueue [] s.due := by
  rw [update_eq]
  rfl

theorem flushAfter_eq (g : GroupNum) : s.flushAfter g = s.update g ((s.group g).afterFlush s.time)
    (s.commitQueue ++ if (s.group g).filling = [] then [] else [g]) [] s.due := by
  unfold flushAfter Group.afterFlush
  by_cases h : (s.group g).filling = []
  · rw [if_pos (by rw [h]; rfl), if_pos h, if_pos h, List.append_nil]
    exact setGroup_eq_update g _
  · rw [if_neg (by simpa using h), if_neg h, if_neg h, update_eq]
    rfl

/-- A pass over the groups that changes nothing but at one. -/
theorem forGroups_only (f : GroupNum → State → State) (g : GroupNum) (h : ∀ i, i ≠ g → ∀ b, f i b = b) (a : State) :
    a.forGroups f = f g a := by
  have hpass : ∀ (l : List GroupNum) (b : State), l.Nodup → l.foldl (fun acc i => f i acc) b = if g ∈ l then f g b else b := by
    intro l
    induction l with
    | nil => exact fun _ _ => rfl
    | cons i l ih =>
      intro b hnodup
      obtain ⟨hi, hl⟩ := List.nodup_cons.mp hnodup
      rw [List.foldl_cons, ih _ hl]
      by_cases he : i = g
      · subst he
        rw [if_neg hi, if_pos List.mem_cons_self]
      · rw [h i he]
        simp [Ne.symm he]
  exact (hpass allGroups a nodup_allGroups).trans (if_pos (mem_allGroups g))

/-- The turn of the group table where one epoch is complete and no LATE record waits (R62 step 6). -/
theorem groupTurn_single (g : GroupNum) : s.groupTurn none [g] = s.afterEpoch g := by
  have hstill : ∀ i, i ≠ g → ∀ b : State, (if [g].contains i then (b.handOverLate none i).afterEpoch i else b.handOverLate none i) = b :=
    fun i hi b => if_neg (by simpa using hi)
  refine (forGroups_only _ g hstill s).trans ?_
  exact if_pos (by simp)

/-! ## GROUP ABANDON (R67, R68) -/

theorem releaseInTurn_of_not_held (hport : ∀ tk h r k, s.port ≠ .held tk h r k) (done : List GroupNum) :
    s.releaseInTurn done = (s, none) := by
  have hlate : s.heldLate = none := by
    unfold heldLate
    split
    · next tk h r k hp => exact absurd hp (hport tk h r k)
    · rfl
    · rfl
  rw [releaseInTurn, hlate]
  exact congrArg (·, none) (reconsiderHeld_of_not_held hport)

/-- Releases from the outgoing list while no write is held (R8). -/
theorem releaseOutgoings_of_not_held (g : GroupNum) (done : List GroupNum) (n : Nat) : ∀ s : State, (∀ tk h r k, s.port ≠ .held tk h r k) →
    s.releaseOutgoings g done n = (s.setGroup g { s.group g with outgoing := (s.group g).outgoing.drop n }, none) := by
  induction n with
  | zero =>
    intro s _
    have hself : s.setGroup g (s.group g) = s := by rw [setGroup, group, Table8.set_get_self]
    exact congrArg (·, none) hself.symm
  | succ n ih =>
    intro s hport
    have hfirst : (s.dropOutgoing g).releaseInTurn done =
        (s.setGroup g { s.group g with outgoing := (s.group g).outgoing.tail }, none) :=
      releaseInTurn_of_not_held (s := s.dropOutgoing g) hport done
    have hrest := ih (s.setGroup g { s.group g with outgoing := (s.group g).outgoing.tail }) hport
    rw [group_setGroup_self, setGroup_setGroup] at hrest
    simp only [List.drop_tail] at hrest
    rw [releaseOutgoings]
    simp only [hfirst, hrest]
    rfl

end State

/-- The group whose stalled epoch has been dropped and counted (R67 steps 1 to 4). -/
def Group.abandoned (x : Group) : Group :=
  { x with outgoing := [], epoch := x.epoch + 1, progress := { x.progress with entriesWritten := 0, begun := false } }

/-- The group whose abandoned END is pending (R67 step 5). -/
def Group.abandonPended (x : Group) : Group :=
  { x.abandoned with progress := { x.abandoned.progress with abandonPending := true } }

/-- The ABANDONED record of a group (R67 step 3). -/
def Group.abandonRecord (x : Group) (g : GroupNum) (now : Time) : RecordBody := .abandoned g now (x.epoch + 1) x.outgoing.length

namespace State
variable {s a : State}

theorem abandonGroup_pending {g : GroupNum} (h : (s.group g).progress.abandonPending = true) : s.abandonGroup g = s.requeue g :=
  if_pos h

/-- The abandon of a group with a marker (R67). -/
theorem abandonGroup_marker (hport : ∀ tk h r k, s.port ≠ .held tk h r k) {g : GroupNum} {m : Addr} (hm : (s.group g).marker = some m)
    (ha : (s.group g).progress.abandonPending = false) :
    s.abandonGroup g = s.update g { (s.group g).abandonPended with state := .queued } (s.commitQueue ++ [g])
      [(s.group g).abandonRecord g s.time] s.due := by
  unfold abandonGroup
  dsimp only
  rw [if_neg (by rw [ha]; decide), if_pos (by rw [hm]; rfl), releaseOutgoings_of_not_held g [] _ s hport, List.drop_length, update_eq]
  simp only [pendAbandon, countAbandoned, requeue_eq, modifyGroup_eq, handOver, setRecords, setGroup, group, Table8.set_set,
    Table8.get_set_self]
  rfl

/-- The abandon of a group without a marker (R67). -/
theorem abandonGroup_no_marker (hport : ∀ tk h r k, s.port ≠ .held tk h r k) {g : GroupNum} (hm : (s.group g).marker = none)
    (ha : (s.group g).progress.abandonPending = false) :
    s.abandonGroup g =
      (s.update g (s.group g).abandoned.epochClosed s.commitQueue [(s.group g).abandonRecord g s.time] s.due).groupTurn none [g] := by
  unfold abandonGroup
  dsimp only
  rw [if_neg (by rw [ha]; decide), if_neg (by rw [hm]; decide), releaseOutgoings_of_not_held g [g] _ s hport, List.drop_length, closeAbandon,
    update_eq]
  refine congrArg (fun b : State => b.groupTurn none [g]) ?_
  simp only [countAbandoned, modifyGroup_eq, handOver, setRecords, setGroup, group, Table8.set_set, Table8.get_set_self]
  rfl

end State

end Sys2Proof.Machine
end

section
/-! PROOF. What follows a change of one group, and GROUP ABANDON with no write held (O38). -/

namespace Sys2Proof.Machine

namespace State
variable {s a : State}

/-! ## A happening after which no take is due -/

/-- Where no take is due, what follows at once leaves the group table, the link, the queue, the engine and the records handed over. -/
theorem follows_of_no_take (before : State) (hcan : a.canTake = false) (hmode : a.mode ≠ .resetting) :
    ∃ w : State, w.Follows (before.settle a) ∧ w.groups = a.groups ∧ w.link = a.link ∧ w.commitQueue = a.commitQueue ∧
      w.engine = a.engine ∧ w.records = a.records := by
  by_cases hdone : a.flushDone = true
  · obtain ⟨hcan', hdone'⟩ := completeFlush_calm hdone
    have hsame : a.completeFlush.groups = a.groups ∧ a.completeFlush.link = a.link ∧ a.completeFlush.commitQueue = a.commitQueue ∧
        a.completeFlush.engine = a.engine ∧ a.completeFlush.records = a.records ∧ a.completeFlush.mode = .bypass := by
      rcases (a.setMode .bypass).passHeld_cases with ⟨-, heq⟩ | ⟨t, q, -, heq⟩ <;> rw [completeFlush, heq]
      · exact ⟨rfl, rfl, rfl, rfl, rfl, rfl⟩
      · exact ⟨rfl, rfl, rfl, rfl, rfl, rfl⟩
    obtain ⟨hgroups, hlink, hqueue, hengine, hrecords, hbypass⟩ := hsame
    refine ⟨a.completeFlush, ?_, hgroups, hlink, hqueue, hengine, hrecords⟩
    rw [settle_completeFlush before hcan hdone]
    exact follows_settle before hcan' hdone' (by simp [softResetDone, hbypass])
  · exact ⟨a, follows_settle before hcan (by simpa using hdone) (by simp [softResetDone, hmode]), rfl, rfl, rfl, rfl, rfl⟩

/-- One group changed, the queue and the engine as they were: what follows leaves it so. -/
theorem settle_update_still (hs : NothingDue s) (hmode : a.mode ≠ .resetting) (hm : a.mode = s.mode) (he : a.engine = s.engine)
    (hg : a.groups = s.groups) (hr : a.records = s.records) (g : GroupNum) (z : Group) (bs : List RecordBody) (d : Due) :
    let t := s.settle (a.update g z s.commitQueue bs d)
    t.link = a.link ∧ (∀ h, h ≠ g → t.group h = s.group h) ∧ t.group g = z ∧ t.commitQueue = s.commitQueue ∧
      t.engine.map (·.group) = s.engine.map (·.group) ∧ Reports s t bs := by
  have hcan : (a.update g z s.commitQueue bs d).canTake = false := by
    have h := hs.1
    simpa only [canTake, update, put, he, hm] using h
  have hgroup : a.group = s.group := funext fun h => by rw [group, hg, group]
  obtain ⟨w, hfollows, hgroups, hlink, hqueue, hengine, hrecords⟩ := follows_of_no_take s hcan hmode
  have hw : ∀ h, (s.settle (a.update g z s.commitQueue bs d)).group h = Function.update a.group g z h := fun h => by
    rw [hfollows.group, State.group, hgroups]
    exact put_group _ _ _ _ h
  refine ⟨hfollows.link.trans hlink, fun h hh => ?_, ?_, hfollows.commitQueue.trans hqueue, ?_, ?_⟩
  · rw [hw, Function.update_of_ne hh, hgroup]
  · rw [hw, Function.update_self]
  · have hwe : w.engine = s.engine := hengine.trans he
    cases hse : s.engine with
    | none => rw [hfollows.idle (hwe.trans hse)]
    | some c =>
      obtain ⟨st, hst⟩ := hfollows.engine c (hwe.trans hse)
      rw [hst]
      rfl
  · have hwr : w.records = bs.foldl RecordUnit.handOver s.records := by
      rw [hrecords, ← hr]
      rfl
    exact hfollows.reports ⟨congrArg RecordUnit.queue hwr, congrArg RecordUnit.lostCount hwr⟩

/-- One group changed and queued, the engine BUSY: nothing follows at the queue. -/
theorem settle_update_busy (before : State) (hmode : a.mode ≠ .resetting) (he : a.engine ≠ none) (g : GroupNum) (z : Group)
    (q : List GroupNum) (bs : List RecordBody) (d : Due) :
    let t := before.settle (a.update g z q bs d)
    t.link = a.link ∧ (∀ h, h ≠ g → t.group h = a.group h) ∧ t.group g = z ∧ t.commitQueue = q ∧ Reports a t bs := by
  obtain ⟨c, hc⟩ := Option.ne_none_iff_exists'.mp he
  have hfollows : (a.update g z q bs d).Follows (before.settle (a.update g z q bs d)) :=
    follows_settle before ((canTake_eq_false_iff _).mpr (.inl he)) (by simp [flushDone, update, put, hc])
      (by simp [softResetDone, update, put, hmode])
  refine ⟨hfollows.link, fun h hh => ?_, ?_, hfollows.commitQueue, hfollows.reports (reports_put _ _ _ _)⟩
  · rw [hfollows.group, update, put_group, Function.update_of_ne hh]
  · rw [hfollows.group, update, put_group, Function.update_self]

/-- One group changed and queued, the engine IDLE: it is taken (R58). -/
theorem settle_update_taken (before : State) (hmode : a.mode ≠ .resetting) (he : a.engine = none) {g : GroupNum} {z : Group}
    {bs : List RecordBody} {d : Due} {kind : DrainKind} {step : Step} (hb : z.progress.begun = false)
    (hstep : z.takeOutcome = .step kind step) {q : Request} (hr : z.stepRequest kind step = q) :
    let t := before.settle (a.update g z [g] bs d)
    t.link = a.link ∧ (∀ h, h ≠ g → t.group h = a.group h) ∧ t.group g = z.takenAt a.time ∧ t.commitQueue = [] ∧
      t.serves g kind step q ∧ t.mode = a.mode ∧ Reports a t bs := by
  have hself : (a.update g z [g] bs d).group g = z := by rw [update, put_group, Function.update_self]
  have h := settle_take_step before (a := a.update g z [g] bs d) hmode he rfl (by rw [hself]; exact hstep) (q := q)
    (by rw [hself]; exact hr)
  refine ⟨h.link, fun i hi => ?_, ?_, h.queue, h.serves, h.mode, h.reports a bs (reports_put _ _ _ _)⟩
  · rw [h.others i hi, update, put_group, Function.update_of_ne hi]
  · rw [h.taken, hself, progress_taken_of_not_begun hb]
    rfl

end State

/-! ## GROUP ABANDON (O38) -/

theorem exec_groupAbandon (ev : FrameEvent) (s : State) : exec (.groupAbandon ev) s = frameHappening s groupAbandonCommand ev := rfl

theorem groupAbandon_accepted {s : State} {g : GroupNum} (hl : LinkReady s) (hst : (s.group g).state = .stalled) :
    exec (.groupAbandon (.whole [numberByte g])) s = .next (s.settle ((s.framed .ok (s.writeSent 1)).abandonGroup g)) := by
  have heffect : groupAbandonCommand.effect [numberByte g] (s.framed .ok (s.writeSent 1)) = (s.framed .ok (s.writeSent 1)).abandonGroup g :=
    onGroup_numberByte g [] _ _
  rw [exec_groupAbandon, frameHappening_write_accepted hl rfl ((checkStalled_eq s g _ _).trans (if_pos hst))]
  exact congrArg (fun b => Host.Outcome.next (s.settle b)) heffect

namespace State
variable {s : State} {g : GroupNum}

/-- The abandon of a group without a marker that takes its return state (R67, R40). -/
theorem abandonGroup_returns (hport : ∀ tk h r k, s.port ≠ .held tk h r k) (hm : (s.group g).marker = none)
    (ha : (s.group g).progress.abandonPending = false)
    (hreturn : s.mode = .active ∨ (s.mode ≠ .quiescing ∧ (s.group g).returnState = .opened)) :
    s.abandonGroup g = s.update g ((s.group g).abandoned.epochClosed.onReturn s.time) s.commitQueue
      ([(s.group g).abandonRecord g s.time] ++ jumpReport g s.time ((s.group g).abandoned.epochClosed.returnSkips s.time)) s.due := by
  rw [abandonGroup_no_marker hport hm ha, groupTurn_single]
  generalize hb : s.update g (s.group g).abandoned.epochClosed s.commitQueue [(s.group g).abandonRecord g s.time] s.due = b
  have hself : b.group g = (s.group g).abandoned.epochClosed := by rw [← hb, update, put_group, Function.update_self]
  have hmode : b.mode = s.mode := by rw [← hb]; rfl
  have htime : b.time = s.time := by rw [← hb]; rfl
  have hturn : b.afterEpoch g = b.update g ((b.group g).onReturn b.time) b.commitQueue
      (jumpReport g b.time ((b.group g).returnSkips b.time)) b.due := by
    rcases hreturn with hact | ⟨hnot, hopened⟩
    · exact (if_neg (by rw [hmode, hact]; decide)).trans (takeReturnState_of_active (hmode.trans hact) g)
    · exact (if_neg (by rw [hmode]; exact hnot)).trans (takeReturnState_of_opened (by rw [hself]; exact hopened))
  rw [hturn, hself, htime, ← hb]
  exact update_update g _ _ _ _ _ _ s.due s.due

/-- The abandon of a group without a marker that comes back ARMED outside ACTIVE. -/
theorem abandonGroup_armed (hport : ∀ tk h r k, s.port ≠ .held tk h r k) (hm : (s.group g).marker = none)
    (ha : (s.group g).progress.abandonPending = false) (hact : s.mode ≠ .active) (hnot : s.mode ≠ .quiescing)
    (hr : (s.group g).returnState = .armed) :
    ∃ z, s.abandonGroup g = s.update g z s.commitQueue [(s.group g).abandonRecord g s.time] s.due := by
  rw [abandonGroup_no_marker hport hm ha, groupTurn_single]
  generalize hb : s.update g (s.group g).abandoned.epochClosed s.commitQueue [(s.group g).abandonRecord g s.time] s.due = b
  have hself : (b.group g).returnState = .armed := by
    rw [← hb, update, put_group, Function.update_self]
    exact hr
  have hmode : b.mode = s.mode := by rw [← hb]; rfl
  have hturn : b.afterEpoch g = b.setGroup g { b.group g with state := .armed, returnState := .opened } := by
    rw [afterEpoch, if_neg (by rw [hmode]; exact hnot), takeReturnState]
    simp only [hself, if_neg (show ¬ b.mode = .active by rw [hmode]; exact hact)]
    rfl
  rw [hturn, setGroup_eq_update, ← hb]
  exact ⟨_, update_update g _ _ _ _ _ _ s.due s.due⟩

/-- The abandon of a group without a marker in QUIESCING (R169). -/
theorem abandonGroup_flush (hport : ∀ tk h r k, s.port ≠ .held tk h r k) (hm : (s.group g).marker = none)
    (ha : (s.group g).progress.abandonPending = false) (hmode : s.mode = .quiescing) :
    s.abandonGroup g = s.update g ((s.group g).abandoned.epochClosed.afterFlush s.time)
      (s.commitQueue ++ if (s.group g).filling = [] then [] else [g]) [(s.group g).abandonRecord g s.time] s.due := by
  rw [abandonGroup_no_marker hport hm ha, groupTurn_single]
  generalize hb : s.update g (s.group g).abandoned.epochClosed s.commitQueue [(s.group g).abandonRecord g s.time] s.due = b
  have hself : b.group g = (s.group g).abandoned.epochClosed := by rw [← hb, update, put_group, Function.update_self]
  have hbmode : b.mode = .quiescing := by rw [← hb]; exact hmode
  rw [afterEpoch, if_pos hbmode, flushAfter_eq, hself, ← hb]
  exact update_update g _ _ _ _ _ _ s.due s.due

end State

/-- Settles O38. -/
theorem groupAbandonDropsTheEpoch : Obligations.GroupAbandonDropsTheEpoch := by
  intro s g hs hl hport x outcome served
  have hnothing := hs.1
  let f := s.framed .ok (s.writeSent 1)
  have hmode : f.mode ≠ .resetting := hl.2.1
  have hidle : s.engine = none → f.commitQueue ++ [g] = [g] := fun he => by
    show s.commitQueue ++ [g] = [g]
    rw [State.queue_nil_of_idle hnothing hl.2.1 he, List.nil_append]
  refine ⟨fun hst => frameHappening_write_refused hs hl rfl ((checkStalled_eq s g _ _).trans (if_neg hst)), fun hst ha => ?_, fun hst ha => ?_⟩
  · have hexec : outcome = .next (s.settle (f.requeue g)) :=
      (groupAbandon_accepted hl hst).trans (congrArg (fun b => Host.Outcome.next (s.settle b)) (State.abandonGroup_pending (s := f) ha))
    refine ⟨fun he => ?_, fun m hm he hb => ?_⟩
    · rw [hexec]
      exact congrArg _ (State.settle_of_settled _ _
        (State.Settled.of_busy_engine (State.settled_framed hs .ok (s.writeSent 1)) he rfl rfl rfl rfl rfl rfl))
    · obtain ⟨hserves, hqueue, hself, hothers, -, hreports⟩ :=
        settle_requeue hs hl.2.1 he hb (show x.takeOutcome = _ from if_pos ha) (stepRequest_abandonEnd hm)
      exact ⟨_, hexec, ⟨hqueue, hserves⟩, hself, hothers, hreports⟩
  · refine ⟨_, groupAbandon_accepted hl hst, ?_⟩
    obtain ⟨m, hm⟩ | hm : (∃ m, x.marker = some m) ∨ x.marker = none := by
      cases x.marker with
      | none => exact .inr rfl
      | some m => exact .inl ⟨m, rfl⟩
    · have heq := State.abandonGroup_marker (s := f) hport hm ha
      by_cases he : s.engine = none
      · rw [heq, hidle he]
        have hpend : ({ x.abandonPended with state := .queued } : Group).takeOutcome = .step .abandonEnd .finish := if_pos rfl
        obtain ⟨hlink, hothers, hself, hqueue, hserves, -, hreports⟩ := State.settle_update_taken s (a := f) (g := g)
          (z := { x.abandonPended with state := .queued }) (bs := [x.abandonRecord g s.time]) (d := f.due) hmode he rfl hpend
          (stepRequest_abandonEnd hm)
        refine ⟨hlink, hothers, fun _ hbusy => absurd he hbusy, fun m' hm' _ => ?_, (fun h => nomatch hm.symm.trans h), fun h => nomatch hm.symm.trans h⟩
        obtain rfl := Option.some.inj (hm.symm.trans hm')
        exact ⟨⟨hqueue, hserves⟩, hself, hreports⟩
      · rw [heq]
        obtain ⟨hlink, hothers, hself, hqueue, hreports⟩ := State.settle_update_busy s (a := f) hmode he g
          { x.abandonPended with state := .queued } (f.commitQueue ++ [g]) [x.abandonRecord g s.time] f.due
        exact ⟨hlink, hothers, fun _ _ => ⟨hself, hqueue, hreports⟩, fun _ _ h => absurd h he, (fun h => nomatch hm.symm.trans h), fun h => nomatch hm.symm.trans h⟩
    · have hstill := State.settle_update_still (a := f) hnothing hmode rfl rfl rfl rfl g
      by_cases hreturn : s.mode = .active ∨ (s.mode ≠ .quiescing ∧ x.returnState = .opened)
      · rw [State.abandonGroup_returns (s := f) hport hm ha hreturn]
        obtain ⟨hlink, hothers, hself, hqueue, hengine, hreports⟩ := hstill (x.abandoned.epochClosed.onReturn s.time)
          ([x.abandonRecord g s.time] ++ jumpReport g s.time (x.abandoned.epochClosed.returnSkips s.time)) f.due
        refine ⟨hlink, hothers, fun h => absurd hm h, (fun _ h => nomatch hm.symm.trans h), fun _ _ => ⟨hqueue, hengine, _, ?_, hreports⟩,
          fun _ hq => ?_⟩
        · have hreturned := returned_onReturn s.time x.abandoned.epochClosed
          rw [← hself] at hreturned
          exact hreturned
        · rcases hreturn with h | h
          · exact nomatch h.symm.trans hq
          · exact absurd hq h.1
      · by_cases hq : s.mode = .quiescing
        · have heq := State.abandonGroup_flush (s := f) hport hm ha hq
          by_cases hfill : x.filling = []
          · have hflush : x.abandoned.epochClosed.afterFlush s.time = x.abandoned.epochClosed.disarmed := if_pos hfill
            rw [if_pos (show (f.group g).filling = [] from hfill), List.append_nil] at heq
            rw [heq]
            obtain ⟨hlink, hothers, hself, hqueue, -, hreports⟩ := hstill (x.abandoned.epochClosed.afterFlush s.time)
              [x.abandonRecord g s.time] f.due
            exact ⟨hlink, hothers, fun h => absurd hm h, (fun _ h => nomatch hm.symm.trans h), fun _ h => absurd h hreturn,
              fun _ _ _ => ⟨hreports, fun _ => ⟨hqueue, hself.trans hflush⟩, fun h => absurd hfill h⟩⟩
          · have hflush : x.abandoned.epochClosed.afterFlush s.time = x.abandoned.epochClosed.flushQueued s.time := if_neg hfill
            rw [if_neg (show ¬ (f.group g).filling = [] from hfill)] at heq
            by_cases he : s.engine = none
            · obtain ⟨e, tail, ho⟩ := List.exists_cons_of_ne_nil hfill
              have hout : (x.abandoned.epochClosed.flushQueued s.time).takeOutcome = .step .epoch .entry :=
                takeOutcome_first_entry rfl rfl hm ho
              rw [heq, hidle he]
              obtain ⟨hlink, hothers, -⟩ := State.settle_update_taken s (a := f) (g := g)
                (z := x.abandoned.epochClosed.afterFlush s.time) (bs := [x.abandonRecord g s.time]) (d := f.due) hmode he
                (by rw [hflush]; rfl) (by rw [hflush]; exact hout) rfl
              exact ⟨hlink, hothers, fun h => absurd hm h, (fun _ h => nomatch hm.symm.trans h), fun _ h => absurd h hreturn,
                fun _ _ hbusy => absurd he hbusy⟩
            · rw [heq]
              obtain ⟨hlink, hothers, hself, hqueue, hreports⟩ := State.settle_update_busy s (a := f) hmode he g
                (x.abandoned.epochClosed.afterFlush s.time) (f.commitQueue ++ [g]) [x.abandonRecord g s.time] f.due
              exact ⟨hlink, hothers, fun h => absurd hm h, (fun _ h => nomatch hm.symm.trans h), fun _ h => absurd h hreturn,
                fun _ _ _ => ⟨hreports, fun h => absurd h hfill, fun _ => ⟨hqueue, hself.trans hflush⟩⟩⟩
        · have hact : s.mode ≠ .active := fun h => hreturn (.inl h)
          have hr : x.returnState = .armed := by
            cases hrs : x.returnState with
            | armed => rfl
            | opened => exact absurd (.inr ⟨hq, hrs⟩) hreturn
          obtain ⟨z, heq⟩ := State.abandonGroup_armed (s := f) hport hm ha hact hq hr
          rw [heq]
          obtain ⟨hlink, hothers, -⟩ := hstill z [x.abandonRecord g s.time] f.due
          exact ⟨hlink, hothers, fun h => absurd hm h, (fun _ h => nomatch hm.symm.trans h), fun _ h => absurd h hreturn, fun _ h => absurd h hq⟩

end Sys2Proof.Machine
end

section
/-! PROOF. MODE SET BYPASS begins the flush (O21). -/

namespace Sys2Proof.Machine

/-- A group at the beginning of the flush (R167). -/
def Group.flushedAt (x : Group) (now : Time) : Group :=
  match x.state with
  | .off | .queued | .draining | .stalled => x
  | .opened | .armed => x.afterFlush now
  | .sealed => { x with state := .queued, epochInstant := x.nextInstant.getD now, nextInstant := none, returnState := .opened }

/-- The beginning of the flush queues the group (R167). -/
def Group.queuesAtFlush (x : Group) : Bool :=
  x.state == .sealed || ((x.state == .opened || x.state == .armed) && !x.filling.isEmpty)

namespace State
variable {s : State}

/-- The first flush step at one group (R167). -/
theorem flushGroup_eq (g : GroupNum) :
    s.flushGroup g = s.update g ((s.group g).flushedAt s.time)
      (s.commitQueue ++ if (s.group g).queuesAtFlush = true then [g] else []) [] s.due := by
  have hsame : s = s.update g (s.group g) (s.commitQueue ++ []) [] s.due := by
    rw [List.append_nil]
    exact (s.update_self g).symm
  have hqueue : ((s.group g).state = .opened ∨ (s.group g).state = .armed) →
      (if (s.group g).queuesAtFlush = true then [g] else []) = if (s.group g).filling = [] then [] else [g] := fun h => by
    by_cases hfill : (s.group g).filling = [] <;> rcases h with h | h <;> simp [Group.queuesAtFlush, h, hfill]
  cases hst : (s.group g).state with
  | off => simpa [flushGroup, Group.flushedAt, Group.queuesAtFlush, hst] using hsame
  | queued => simpa [flushGroup, Group.flushedAt, Group.queuesAtFlush, hst] using hsame
  | draining => simpa [flushGroup, Group.flushedAt, Group.queuesAtFlush, hst] using hsame
  | stalled => simpa [flushGroup, Group.flushedAt, Group.queuesAtFlush, hst] using hsame
  | opened =>
    simp only [flushGroup, Group.flushedAt, hst, hqueue (.inl hst)]
    exact s.flushAfter_eq g
  | armed =>
    simp only [flushGroup, Group.flushedAt, hst, hqueue (.inr hst)]
    exact s.flushAfter_eq g
  | _ =>
    simp only [flushGroup, Group.flushedAt, Group.queuesAtFlush, hst]
    rw [update_eq]
    rfl

/-- The beginning of the flush, as one new group table (R167). -/
theorem beginFlush_eq (s : State) :
    s.beginFlush = ((s.setMode .quiescing).setPort s.port.holdForMode).put (fun g => (s.group g).flushedAt s.time)
      (s.commitQueue ++ allGroups.filter (fun g => (s.group g).queuesAtFlush)) [] s.due := by
  have hpass := forGroups_pass flushGroup (fun g => (s.group g).flushedAt s.time) (fun g => (s.group g).queuesAtFlush) (fun _ => [])
    ((s.setMode .quiescing).setPort s.port.holdForMode) (fun g b hb => ?_)
  · refine hpass.trans ?_
    rw [show allGroups.flatMap (fun _ => ([] : List RecordBody)) = [] from rfl]
    rfl
  · have hgroup : b.group g = s.group g := hb.group
    have htime : b.time = s.time := hb.time
    rw [flushGroup_eq, hgroup, htime]

end State

theorem modeSet_beginsFlush {s : State} (hl : LinkReady s) (hmode : s.mode = .active) (hnot : ¬ s.bypassAtOnce) :
    exec (.modeSet (.whole [0])) s = .next (s.settle (s.framed .ok (s.writeSent 1)).beginFlush) := by
  have hatOnce : ¬ (s.framed .ok (s.writeSent 1)).bypassAtOnce = true := hnot
  have heffect : effectModeSet [0] (s.framed .ok (s.writeSent 1)) = (s.framed .ok (s.writeSent 1)).beginFlush := by
    simp only [effectModeSet, show wantsActive [0] = some false from rfl,
      show (s.framed .ok (s.writeSent 1)).mode = .active from hmode, if_neg hatOnce]
  rw [exec_modeSet, frameHappening_write_accepted (c := modeSetCommand) (ps := [0]) hl rfl
    (checkModeSet_zero (s.framed s.link.lastResult (s.writeSent 1)))]
  exact congrArg (fun b => Host.Outcome.next (s.settle b)) heffect

/-- Settles O21. -/
theorem modeSetBeginsTheFlush : Obligations.ModeSetBeginsTheFlush := by
  intro s hs hl hmode hnot flushed queued port
  have hexec := modeSet_beginsFlush hl hmode hnot
  have hnothing := hs.1
  have heq := (s.framed .ok (s.writeSent 1)).beginFlush_eq
  have hflushed : ∀ x, flushed x = x.flushedAt s.time := fun x => by
    simp only [flushed, Group.flushedAt, Group.afterFlush]
    cases x.state <;> rfl
  have hport : port = s.port.holdForMode := by
    simp only [port]
    cases s.port <;> rfl
  generalize ha : (s.framed .ok (s.writeSent 1)).beginFlush = a at hexec heq
  have hgroup : ∀ g, a.group g = flushed (s.group g) := fun g => by
    rw [heq, State.put_group, hflushed]
    rfl
  have hqueue : a.commitQueue = s.commitQueue ++ queued := by
    rw [heq]
    rfl
  have hengine : a.engine = s.engine := by rw [heq]; rfl
  have hamode : a.mode = .quiescing := by rw [heq]; rfl
  refine ⟨fun h => ?_, fun g rest hq he => ?_⟩
  · have hwhole : a = { s.framed .ok (s.writeSent 1) with
        mode := .quiescing, port := port, groups := s.groups.map flushed, commitQueue := s.commitQueue ++ queued } := by
      have hgroups : a.groups = s.groups.map flushed := Table8.ext_get fun g => (hgroup g).trans (Table8.get_map _ _ _).symm
      rw [← hgroups, ← hqueue, hport, heq]
      rfl
    have hcan : a.canTake = false := by
      rw [State.canTake_eq_false_iff, hengine, hqueue]
      rcases h with h | ⟨hq, -⟩
      · exact .inl h
      · rcases (State.canTake_eq_false_iff s).mp hnothing.1 with hb | hn | hr
        · exact .inl hb
        · exact .inr (.inl (by rw [hn, hq]; rfl))
        · exact absurd hr hl.2.1
    have hdone : a.flushDone = false := by
      rcases h with h | ⟨-, g, hst⟩
      · obtain ⟨c, hc⟩ := Option.ne_none_iff_exists'.mp h
        simp [State.flushDone, hengine, hc]
      · exact State.flushDone_of_stalled (g := g) (by
          rw [hgroup]
          simp only [flushed, hst])
    have hsettled : Settled a := by
      obtain ⟨-, -, -, hrecord, hgrant⟩ := hnothing
      refine ⟨⟨hcan, hdone, by simp [State.softResetDone, hamode], ?_, ?_⟩, ?_⟩
      · simpa [State.canBeginRecord, heq, State.put, State.framed, State.framedBits, hmode] using hrecord
      · simpa [State.canGrant, heq, State.put, State.framed, State.framedBits, hmode] using hgrant
      · rw [heq]
        exact hs.2
    rw [hexec, State.settle_of_settled _ _ hsettled, ← hwhole]
  · intro x hb ha' hne
    obtain ⟨step, hout, hstart, hentry⟩ := takeOutcome_starts (x := x) ⟨hb, ha', hne⟩
    have hq' : a.commitQueue = g :: rest := by
      rw [hqueue, hq, State.queue_nil_of_idle hnothing hl.2.1 he, List.nil_append]
    have h := State.settle_take_step s (a := a) (by rw [hamode]; decide) (hengine.trans he) hq'
      (kind := .epoch) (step := step) (by rw [hgroup]; exact hout) (q := x.stepRequest .epoch step) (by rw [hgroup])
    have htime : a.time = s.time := by rw [heq]; rfl
    refine ⟨s.settle a, hexec, h.mode.trans hamode, ?_, h.queue, ?_, ?_, fun i hi => (h.others i hi).trans (hgroup i), fun m hm => ?_,
      fun e tail ho hm => ?_⟩
    · rw [h.port, hport, heq]
      rfl
    · rw [h.link, heq]
      rfl
    · rw [h.taken, hgroup, htime, progress_taken_of_not_begun hb]
      rfl
    · obtain rfl := hstart m hm
      rw [← stepRequest_start hm .epoch]
      exact h.serves
    · obtain rfl := hentry e tail ho hm
      rw [← stepRequest_entry ho .epoch]
      exact h.serves

end Sys2Proof.Machine
end

section
/-! PROOF. The drain engine's steps one after another (O53). -/

namespace Sys2Proof.Machine

namespace State
variable {s a b : State}

/-! ## The next step at a response (R60, R122) -/

/-- The engine goes on at its own response: its next request is granted first (R122). -/
theorem settle_next_step {q : Request} (hout : s.arbiter.outstanding = some (.drain, q)) (hmode : a.mode ≠ .resetting) {c : DrainContext}
    (he : a.engine = some c) {r : Request} (hplace : a.arbiter.drainPlace = some r) (hidle : a.arbiter.outstanding = none) :
    let t := s.settle a
    t.engine = some { c with status := .outstanding } ∧ t.arbiter.outstanding = some (.drain, r) ∧ t.groups = a.groups := by
  have hcan : a.canTake = false := (canTake_eq_false_iff a).mpr (.inl (by rw [he]; exact fun h => nomatch h))
  have hflush : a.flushDone = false := by simp [flushDone, he]
  have hfollows := follows_settle s hcan hflush (by simp [softResetDone, hmode])
  have hsame : a.takeNext.settleFlush = a := by rw [takeNext_of_not_canTake a hcan, settleFlush_of_not_done a hflush]
  have hbegun := begun_settleWriter a
  have hgrant : a.settleWriter.canGrant = true := by
    rw [hbegun.grant]
    simp [canGrant, hidle, hmode]
  have hdrain : a.settleWriter.arbiter.drainPlace = some r := hbegun.drain.trans hplace
  have harbitrate : s.arbitrate a.settleWriter = a.settleWriter.grantTo .drain :=
    arbitrate_drain (by rw [hout]; rfl) hgrant hdrain (.inr (owner_of_outstanding hout))
  have hsettle : s.settle a = (a.settleWriter.grantTo .drain).refreshIrq := by
    rw [settle_outside s (by rw [hsame]; exact hmode), hsame, harbitrate]
  refine ⟨?_, ?_, hfollows.groups⟩
  · rw [hsettle, refreshIrq_engine, grantTo_drain _ r hdrain]
    show Option.map _ a.settleWriter.engine = _
    rw [hbegun.engine, he]
    rfl
  · rw [hsettle, refreshIrq_arbiter]
    exact grantTo_outstanding hdrain

/-! ## An epoch that completes at a response in ACTIVE (R62) -/

theorem finishEpoch_group (g h : GroupNum) : (s.finishEpoch g).group h = if h = g then (s.group g).epochDone else s.group h := by
  rw [finishEpoch_update, ← Function.update_apply]
  exact put_group (s := s) _ s.commitQueue ((s.group g).doneReport g (s.group g).progress.entriesWritten s.time) s.due h

theorem finishAbandon_group (g h : GroupNum) : (s.finishAbandon g).group h = if h = g then (s.group g).epochClosed else s.group h := by
  rw [finishAbandon_update, ← Function.update_apply]
  exact put_group (s := s) _ s.commitQueue [] s.due h

/-- The takes that follow the completion of group `g`'s epoch, and what follows them at once (R62 steps 5 and 6). -/
theorem takeAll_follows (he : b.engine = none) (hmode : b.mode = .active) {g : GroupNum} {comp rest : List GroupNum}
    (hq : b.commitQueue = comp ++ rest) (hnodup : comp.Nodup) (hhead : ∀ h ∈ rest.head?, h ∉ comp)
    (hcomp : ∀ h ∈ comp, (b.group h).CompletesAtTake) (hrest : ∀ h ∈ rest.head?, h ∉ [g] ∧ (b.group h).StartsAtTake) :
    TakesDone b none [g] comp rest (b.takeAll none [g]) ∧ (b.takeAll none [g]).Follows (s.settle (b.takeAll none [g])) := by
  have htakes := takesDone_takeAll none (done := [g]) he hmode hq hnodup hhead hcomp hrest
  have hamode : (b.takeAll none [g]).mode = .active := (takesKeep_takeChain none _ b [g]).mode.trans hmode
  obtain ⟨hflush, hreset⟩ := notDone_of_active hamode
  exact ⟨htakes, follows_settle s htakes.ended hflush hreset⟩

/-- The OVERRUN records of the return states where group `g` alone has completed (R40). -/
theorem jumpReports_single (g : GroupNum) (s : State) :
    allGroups.flatMap (fun h => lateAt none h ++ if h ∈ ([] : List GroupNum) ∨ h ∈ [g] then
      jumpReport h s.time ((s.afterTakes [] h).returnSkips s.time) else []) =
      jumpReport g s.time ((s.group g).returnSkips s.time) := by
  refine flatMap_only (g := g) _ ?_ (fun i hi => ?_)
  · rw [if_pos (.inr List.mem_cons_self)]
    rfl
  · rw [if_neg (by simp [hi])]
    rfl

/-- The epoch of group `g` has completed and no group is queued (R62, R40). -/
theorem settle_ends_idle (he : b.engine = none) (hmode : b.mode = .active) (hq : b.commitQueue = []) (g : GroupNum)
    {bs : List RecordBody} (hr : b.records = bs.foldl RecordUnit.handOver s.records) :
    let t := s.settle (b.takeAll none [g])
    t.engine = none ∧ t.commitQueue = [] ∧ (∀ h, h ≠ g → t.group h = b.group h) ∧ t.group g = (b.group g).onReturn b.time ∧
      Reports s t (bs ++ jumpReport g b.time ((b.group g).returnSkips b.time)) := by
  obtain ⟨htakes, hfollows⟩ := takeAll_follows (s := s) (g := g) (comp := []) (rest := []) he hmode hq List.nodup_nil
    (fun _ h => nomatch h) (fun _ h => nomatch h) (fun _ h => nomatch h)
  refine ⟨hfollows.idle (htakes.idle rfl), hfollows.commitQueue.trans htakes.queue, fun h hh => ?_, ?_, ?_⟩
  · rw [hfollows.group, htakes.others h List.not_mem_nil (by simpa using hh) (fun hc => nomatch hc)]
  · rw [hfollows.group, htakes.returned g (.inr List.mem_cons_self)]
    rfl
  · have hrecords := htakes.records
    rw [jumpReports_single, takeReports, List.flatMap_nil, List.nil_append, hr, ← List.foldl_append] at hrecords
    exact hfollows.reports ⟨congrArg RecordUnit.queue hrecords, congrArg RecordUnit.lostCount hrecords⟩

end State

/-- The last ENTRY of a group without a marker, no write being held (R60, R62). -/
theorem afterEntry_last {s : State} {g : GroupNum} (hport : ∀ tk h r k, s.port ≠ .held tk h r k) (ho : (s.group g).outgoing = [])
    (hm : (s.group g).marker = none) : s.afterEntry g = s.completeEpoch none g := by
  rw [State.afterEntry, if_neg (by rw [ho]; decide), if_neg (by rw [hm]; decide), State.releaseInTurn_of_not_held hport]

/-- Settles O53. -/
theorem drainStepsFollowOneAnother : Obligations.DrainStepsFollowOneAnother := by
  intro s c q hs hrun hmode hport hc hkind hout
  obtain ⟨g, kind, step, status⟩ := c
  obtain rfl : kind = .epoch := hkind
  intro x next counted endWord
  have hexec := exec_drainStepResponse hrun true
  have hresponse := State.drainResponse_outside hmode hout hc true
  rw [if_pos rfl] at hresponse
  have hstart : step = .start → s.drainResponse true =
      s.endTransaction.requestStep g .epoch (if x.outgoing = [] then .finish else .entry) := by
    rintro rfl
    rw [hresponse]
    by_cases ho : x.outgoing = []
    · rw [if_pos ho]
      exact if_pos (show (s.endTransaction.group g).outgoing.isEmpty = true from List.isEmpty_iff.mpr ho)
    · rw [if_neg ho]
      exact if_neg (show ¬ (s.endTransaction.group g).outgoing.isEmpty = true from fun h => ho (List.isEmpty_iff.mp h))
  have hentry : step = .entry → s.drainResponse true = (s.endTransaction.setGroup g counted).afterEntry g := by
    rintro rfl
    rw [hresponse]
    exact congrArg (fun b : State => b.afterEntry g) (State.entryWritten_eq (s := s.endTransaction) g)
  have hself : (s.endTransaction.setGroup g counted).group g = counted := State.group_setGroup_self ..
  have hother : ∀ h, h ≠ g → (s.endTransaction.setGroup g counted).group h = s.group h := fun h hh => State.group_setGroup_ne s.endTransaction _ hh
  have hnotHeld : (s.endTransaction.setGroup g counted).reconsiderHeld = s.endTransaction.setGroup g counted :=
    reconsiderHeld_of_not_held hport
  have hnext : ∀ (b : State) (st : Step) (r : Request), b.mode = s.mode → b.arbiter.outstanding = none →
      s.drainResponse true = b.requestStep g .epoch st → (b.group g).stepRequest .epoch st = r →
      ∃ t, exec (.drainStepResponse true) s = .next t ∧ next t st r ∧ t.groups = b.groups := by
    intro b st r hb hidle heq hr
    obtain ⟨hengine, hgrant, hgroups⟩ := State.settle_next_step (a := s.drainResponse true) hout
      (by rw [heq]; show b.mode ≠ _; rw [hb]; exact hmode) (by rw [heq]; rfl) (r := r) (by rw [heq, ← hr]; rfl) (by rw [heq]; exact hidle)
    exact ⟨_, hexec, ⟨hengine, hgrant⟩, hgroups.trans (by rw [heq]; rfl)⟩
  have hgroups : ∀ t : State, t.groups = (s.endTransaction.setGroup g counted).groups →
      t.group g = counted ∧ ∀ h, h ≠ g → t.group h = s.group h := fun t ht =>
    ⟨by rw [State.group, ht]; exact hself, fun h hh => by rw [State.group, ht]; exact hother h hh⟩
  refine ⟨fun e tail hst ho => ?_, fun m hst ho hm => ?_, fun d e tail hst ho => ?_, fun d m hst ho hm => ?_, fun d ho hst hm hact hq => ?_⟩
  · have heq := hstart hst
    rw [if_neg (by rw [ho]; exact List.cons_ne_nil e tail)] at heq
    exact hnext s.endTransaction .entry _ rfl rfl heq (stepRequest_entry ho _)
  · have heq := hstart hst
    rw [if_pos ho] at heq
    exact hnext s.endTransaction .finish _ rfl rfl heq (stepRequest_finish hm)
  · have hrest : counted.outgoing = e :: tail := congrArg List.tail ho
    have heq : s.drainResponse true = (s.endTransaction.setGroup g counted).requestStep g .epoch .entry := by
      rw [hentry hst, State.afterEntry, hself, if_pos (by rw [hrest]; rfl), hnotHeld]
    obtain ⟨t, ht, hn, hg⟩ := hnext (s.endTransaction.setGroup g counted) .entry e.write rfl rfl heq (by rw [hself]; exact stepRequest_entry hrest _)
    exact ⟨t, ht, hn, hgroups t hg⟩
  · have hrest : counted.outgoing = [] := congrArg List.tail ho
    have heq : s.drainResponse true = (s.endTransaction.setGroup g counted).requestStep g .epoch .finish := by
      rw [hentry hst, State.afterEntry, hself, if_neg (by rw [hrest]; decide), if_pos (by rw [show counted.marker = some m from hm]; rfl),
        hnotHeld]
    obtain ⟨t, ht, hn, hg⟩ := hnext (s.endTransaction.setGroup g counted) .finish (endWord m) rfl rfl heq (by rw [hself]; exact stepRequest_finish hm)
    exact ⟨t, ht, hn, hgroups t hg⟩
  · have hrest : counted.outgoing = [] := congrArg List.tail ho
    have heq : s.drainResponse true = ((s.endTransaction.setGroup g counted).finishEpoch g).takeAll none [g] := by
      rw [hentry hst]
      exact afterEntry_last hport (by rw [hself]; exact hrest) (by rw [hself]; exact hm)
    have hfinish := State.finishEpoch_update (s.endTransaction.setGroup g counted) g
    rw [hself] at hfinish
    generalize hb : (s.endTransaction.setGroup g counted).finishEpoch g = b at heq hfinish
    have hgroup : ∀ h, b.group h = if h = g then counted.epochDone else s.group h := fun h => by
      rw [← hb, State.finishEpoch_group, hself]
      by_cases hh : h = g
      · rw [if_pos hh, if_pos hh]
      · rw [if_neg hh, if_neg hh, hother h hh]
    obtain ⟨hidle, hqueue, hothers, hreturn, hreports⟩ := State.settle_ends_idle (s := s) (b := b) (by rw [hfinish])
      (by rw [hfinish]; exact hact) (by rw [hfinish]; exact hq) g
      (bs := counted.doneReport g (x.progress.entriesWritten + 1) s.time) (by rw [hfinish]; rfl)
    have htime : b.time = s.time := by rw [hfinish]; rfl
    rw [hgroup, if_pos rfl, htime] at hreturn hreports
    refine ⟨_, hexec.trans (by rw [heq]), hidle, hqueue, fun h hh => (hothers h hh).trans (by rw [hgroup, if_neg hh]), _, ?_, hreports⟩
    have hreturned := returned_onReturn s.time counted.epochDone
    rw [← hreturn] at hreturned
    exact hreturned

end Sys2Proof.Machine
end

section
/-! PROOF. An END answered OK (O54). -/

namespace Sys2Proof.Machine

namespace State
variable {s a b : State}

/-! ## The end of an epoch at a response (R62, R65) -/

/-- The epoch of group `g` has ended: its fields are `y`, the records `bs` have been handed over, and the engine is IDLE. -/
structure EpochEnded (s : State) (g : GroupNum) (y : Group) (bs : List RecordBody) (b : State) : Prop where
  group : ∀ h, b.group h = if h = g then y else s.group h
  engine : b.engine = none
  mode : b.mode = s.mode
  queue : b.commitQueue = s.commitQueue
  time : b.time = s.time
  port : b.port = s.port
  records : b.records = bs.foldl RecordUnit.handOver s.records

theorem epochEnded_finishEpoch (s : State) (g : GroupNum) :
    EpochEnded s g (s.group g).epochDone ((s.group g).doneReport g (s.group g).progress.entriesWritten s.time)
      (s.endTransaction.finishEpoch g) := by
  refine ⟨fun h => finishEpoch_group (s := s.endTransaction) g h, ?_, ?_, ?_, ?_, ?_, ?_⟩ <;> rw [finishEpoch_update] <;> rfl

theorem epochEnded_finishAbandon (s : State) (g : GroupNum) :
    EpochEnded s g (s.group g).epochClosed [] (s.endTransaction.finishAbandon g) := by
  refine ⟨fun h => finishAbandon_group (s := s.endTransaction) g h, ?_, ?_, ?_, ?_, ?_, ?_⟩ <;> rw [finishAbandon_update] <;> rfl

/-- An END answered OK ends the epoch, and the takes follow (R62 step 5). -/
theorem drainResponse_finish {c : DrainContext} (hc : s.engine = some c) (hmode : s.mode ≠ .resetting)
    (howner : s.arbiter.owner = some .drain) (hstep : c.step = .finish) :
    ∃ b, s.drainResponse true = b.takeAll none [c.group] ∧
      EpochEnded s c.group (if c.kind = .epoch then (s.group c.group).epochDone else (s.group c.group).epochClosed)
        (if c.kind = .epoch then (s.group c.group).doneReport c.group (s.group c.group).progress.entriesWritten s.time else []) b := by
  obtain ⟨⟨o, q⟩, hq, ho⟩ := Option.map_eq_some_iff.mp howner
  obtain rfl : o = .drain := ho
  have hresponse := drainResponse_outside hmode hq hc true
  rw [if_pos rfl] at hresponse
  obtain ⟨g, kind, step, st⟩ := c
  obtain rfl : step = .finish := hstep
  cases kind with
  | epoch => exact ⟨_, hresponse, epochEnded_finishEpoch s g⟩
  | abandonEnd => exact ⟨_, hresponse, epochEnded_finishAbandon s g⟩

theorem reports_of_records {bs cs : List RecordBody} (hb : b.records = bs.foldl RecordUnit.handOver s.records) (h : Reports b a cs) :
    Reports s a (bs ++ cs) := by
  obtain ⟨hqueue, hlost⟩ := h
  exact ⟨by rw [hqueue, hb, ← List.foldl_append], by rw [hlost, hb, ← List.foldl_append]⟩

namespace EpochEnded
variable {g : GroupNum} {y : Group} {bs : List RecordBody}

/-- In ACTIVE, the next queued group takes up its first step (R58, R62 step 5). -/
theorem takes_next (hb : EpochEnded s g y bs b) (hmode : s.mode = .active) {h : GroupNum} {rest : List GroupNum}
    (hq : s.commitQueue = h :: rest) (hne : h ≠ g) (hx : (s.group h).StartsAtTake) :
    let t := s.settle (b.takeAll none [g])
    t.takesUp h (s.group h) s.time ∧ t.commitQueue = rest ∧ (∀ i, i ≠ g → i ≠ h → t.group i = s.group i) ∧
      t.group g = y.onReturn s.time ∧ Reports s t (bs ++ jumpReport g s.time (y.returnSkips s.time)) := by
  have hself : b.group g = y := (hb.group g).trans (if_pos rfl)
  have hother : ∀ i, i ≠ g → b.group i = s.group i := fun i hi => (hb.group i).trans (if_neg hi)
  obtain ⟨htakes, hfollows⟩ := takeAll_follows (s := s) (g := g) (comp := []) (rest := h :: rest) hb.engine (hb.mode.trans hmode)
    (hb.queue.trans hq) List.nodup_nil (fun _ _ => List.not_mem_nil) (fun _ hi => nomatch hi) (fun i hi => by
      obtain rfl := Option.some.inj hi
      rw [hother h hne]
      exact ⟨by simpa using hne, hx⟩)
  obtain ⟨hgroup, step, hstart, hentry, hengine, hplace⟩ := htakes.next h rest rfl
  rw [hother h hne] at hgroup hstart hentry hplace
  rw [hb.time] at hgroup
  refine ⟨takesUp_of_follows hfollows hgroup hengine hplace rfl hstart hentry, hfollows.commitQueue.trans htakes.queue,
    fun i hg hi => ?_, ?_, ?_⟩
  · rw [hfollows.group, htakes.others i List.not_mem_nil (by simpa using hg) (fun hc => hi (Option.some.inj hc).symm), hother i hg]
  · rw [hfollows.group, htakes.returned g (.inr List.mem_cons_self), afterTakes, if_neg List.not_mem_nil, hself, hb.time]
  · have hrecords := htakes.records
    rw [jumpReports_single, takeReports, List.flatMap_nil, List.nil_append, hself, hb.time] at hrecords
    exact reports_of_records hb.records (hfollows.reports ⟨congrArg RecordUnit.queue hrecords, congrArg RecordUnit.lostCount hrecords⟩)

/-- In ACTIVE, the only queued group completes at its take in the same way (R58, R62). -/
theorem completes_next (hb : EpochEnded s g y bs b) (hmode : s.mode = .active) {h : GroupNum} (hq : s.commitQueue = [h]) (hne : h ≠ g)
    (hx : (s.group h).CompletesAtTake) :
    let t := s.settle (b.takeAll none [g])
    let z := (s.group h).takenAt s.time
    t.engine = none ∧ t.commitQueue = [] ∧ (∀ i, i ≠ g → i ≠ h → t.group i = s.group i) ∧ t.group g = y.onReturn s.time ∧
      t.group h = z.epochDone.onReturn s.time ∧
      Reports s t (bs ++ z.doneReport h 0 s.time ++
        if h < g then jumpReport h s.time (z.epochDone.returnSkips s.time) ++ jumpReport g s.time (y.returnSkips s.time)
        else jumpReport g s.time (y.returnSkips s.time) ++ jumpReport h s.time (z.epochDone.returnSkips s.time)) := by
  intro t z
  have hself : b.group g = y := (hb.group g).trans (if_pos rfl)
  have hother : ∀ i, i ≠ g → b.group i = s.group i := fun i hi => (hb.group i).trans (if_neg hi)
  obtain ⟨htakes, hfollows⟩ := takeAll_follows (s := s) (g := g) (comp := [h]) (rest := []) hb.engine (hb.mode.trans hmode)
    (hb.queue.trans hq) (List.nodup_singleton h) (fun _ hi => nomatch hi)
    (fun i hi => by rw [List.mem_singleton.mp hi, hother h hne]; exact hx) (fun _ hi => nomatch hi)
  have hafterG : b.afterTakes [h] g = y := by rw [afterTakes, if_neg (by simpa using Ne.symm hne), hself]
  have hafterH : b.afterTakes [h] h = z.epochDone := by rw [afterTakes, if_pos List.mem_cons_self, hother h hne, hb.time]
  refine ⟨hfollows.idle (htakes.idle rfl), hfollows.commitQueue.trans htakes.queue, fun i hg hi => ?_, ?_, ?_, ?_⟩
  · rw [hfollows.group, htakes.others i (by simpa using hi) (by simpa using hg) (fun hc => nomatch hc), hother i hg]
  · rw [hfollows.group, htakes.returned g (.inr List.mem_cons_self), hafterG, hb.time]
  · rw [hfollows.group, htakes.returned h (.inl List.mem_cons_self), hafterH, hb.time]
  · let f := fun i => lateAt none i ++ if i ∈ [h] ∨ i ∈ [g] then jumpReport i b.time ((b.afterTakes [h] i).returnSkips b.time) else []
    have hfg : f g = jumpReport g s.time (y.returnSkips s.time) := by
      simp only [f, if_pos (show g ∈ [h] ∨ g ∈ [g] from .inr List.mem_cons_self), hafterG, hb.time]
      rfl
    have hfh : f h = jumpReport h s.time (z.epochDone.returnSkips s.time) := by
      simp only [f, if_pos (show h ∈ [h] ∨ h ∈ [g] from .inl List.mem_cons_self), hafterH, hb.time]
      rfl
    have hfo : ∀ i, i ≠ g → i ≠ h → f i = [] := fun i hg hi => by
      simp only [f, if_neg (show ¬ (i ∈ [h] ∨ i ∈ [g]) by simp [hg, hi])]
      rfl
    have hjumps : allGroups.flatMap f =
        if h < g then jumpReport h s.time (z.epochDone.returnSkips s.time) ++ jumpReport g s.time (y.returnSkips s.time)
        else jumpReport g s.time (y.returnSkips s.time) ++ jumpReport h s.time (z.epochDone.returnSkips s.time) := by
      by_cases hlt : h < g
      · rw [if_pos hlt]
        exact flatMap_two hlt f hfg hfh hfo
      · rw [if_neg hlt]
        exact flatMap_two (lt_of_le_of_ne (not_lt.mp hlt) (Ne.symm hne)) f hfh hfg (fun i hi hg => hfo i hg hi)
    have hends : b.takeReports [h] = z.doneReport h 0 s.time := by
      rw [takeReports, List.flatMap_cons, List.flatMap_nil, List.append_nil, hother h hne, hb.time]
    have hrecords := htakes.records
    rw [show allGroups.flatMap _ = _ from hjumps, hends] at hrecords
    rw [List.append_assoc]
    exact reports_of_records hb.records (hfollows.reports ⟨congrArg RecordUnit.queue hrecords, congrArg RecordUnit.lostCount hrecords⟩)

/-- In QUIESCING the group takes the state the flush gives (R169). -/
theorem flush_turn (hb : EpochEnded s g y bs b) (hmode : s.mode = .quiescing) (hq : s.commitQueue = []) :
    b.takeAll none [g] = b.update g (y.afterFlush s.time) (if y.filling = [] then [] else [g]) [] b.due := by
  have hself : b.group g = y := (hb.group g).trans (if_pos rfl)
  have hqueue : b.commitQueue = [] := hb.queue.trans hq
  have hturn : b.takeAll none [g] = b.groupTurn none [g] := by
    rw [takeAll, hqueue]
    rfl
  rw [hturn, groupTurn_single, afterEpoch, if_pos (hb.mode.trans hmode), flushAfter_eq, hself, hb.time, hqueue, List.nil_append]

end EpochEnded

end State

end Sys2Proof.Machine
end

section
/-! PROOF. An END answered OK (O54), assembled. -/

namespace Sys2Proof.Machine

namespace State
variable {s a b : State}

theorem flushDone_of_flushed (hmode : a.mode = .quiescing) (hgroups : ∀ g, (a.group g).flushed = true) (hqueue : a.commitQueue = [])
    (hengine : a.engine = none) : a.flushDone = true := by
  have hall : a.groups.toList.all Group.flushed = true := by
    rw [List.all_eq_true]
    intro x hx
    obtain ⟨g, rfl⟩ := (Table8.mem_toList_iff _ _).mp hx
    exact hgroups g
  simp [flushDone, hmode, hall, hqueue, hengine]

/-- The completion of the flush, first of all (R171), and what follows it. -/
theorem follows_completeFlush (before : State) (hdone : a.flushDone = true) (hcan : a.canTake = false) :
    a.completeFlush.Follows (before.settle a) ∧ a.completeFlush.mode = .bypass := by
  obtain ⟨hcan', hdone'⟩ := completeFlush_calm hdone
  have hbypass : a.completeFlush.mode = .bypass := by
    rcases (a.setMode .bypass).passHeld_cases with ⟨-, heq⟩ | ⟨t, q, -, heq⟩ <;> rw [completeFlush, heq]
    · rfl
    · rfl
  rw [settle_completeFlush before hcan hdone]
  exact ⟨follows_settle before hcan' hdone' (by simp [softResetDone, hbypass]), hbypass⟩

namespace EpochEnded
variable {g : GroupNum} {y : Group} {bs : List RecordBody}

/-- In QUIESCING a group with filling entries is queued and taken at once (R169, R58). -/
theorem flush_takes (hb : EpochEnded s g y bs b) (hmode : s.mode = .quiescing) (hq : s.commitQueue = []) (hfill : y.filling ≠ [])
    (hbegun : y.progress.begun = false) (hpending : y.progress.abandonPending = false) :
    let t := s.settle (b.takeAll none [g])
    t.takesUp g (y.flushQueued s.time) s.time ∧ t.commitQueue = [] ∧ t.mode = .quiescing ∧ (∀ h, h ≠ g → t.group h = s.group h) ∧
      Reports s t bs := by
  have hbmode : b.mode = .quiescing := hb.mode.trans hmode
  have hz : y.afterFlush s.time = y.flushQueued s.time := if_neg hfill
  obtain ⟨step, hout, hstart, hentry⟩ := takeOutcome_starts (x := y.flushQueued s.time) ⟨hbegun, hpending, fun h => hfill h.2⟩
  rw [hb.flush_turn hmode hq, if_neg hfill, hz]
  obtain ⟨-, hothers, hself, hqueue, ⟨hengine, hasks⟩, hm, hreports⟩ := settle_update_taken s (a := b) (g := g) (z := y.flushQueued s.time)
    (bs := []) (d := b.due) (by rw [hbmode]; decide) hb.engine hbegun hout (q := (y.flushQueued s.time).stepRequest .epoch step) rfl
  rw [hb.time] at hself
  have hall := reports_of_records hb.records hreports
  rw [List.append_nil] at hall
  refine ⟨⟨hself, fun m hm => ?_, fun e tail ho hm => ?_⟩, hqueue, hm.trans hbmode,
    fun h hh => (hothers h hh).trans ((hb.group h).trans (if_neg hh)), hall⟩
  · obtain rfl := hstart m hm
    exact ⟨hengine, stepRequest_start hm .epoch ▸ hasks⟩
  · obtain rfl := hentry e tail ho hm
    exact ⟨hengine, stepRequest_entry ho .epoch ▸ hasks⟩

/-- In QUIESCING a group without filling entries becomes OPEN, and the flush may complete (R169, R171). -/
theorem flush_opens (hb : EpochEnded s g y bs b) (hmode : s.mode = .quiescing) (hq : s.commitQueue = []) (hfill : y.filling = [])
    (hout : y.outgoing = []) :
    let t := s.settle (b.takeAll none [g])
    t.engine = none ∧ t.commitQueue = [] ∧ t.group g = y.disarmed ∧ (∀ h, h ≠ g → t.group h = s.group h) ∧ Reports s t bs ∧
      (let flushed := ∀ h, h ≠ g → (s.group h).state = .off ∨
         ((s.group h).state = .opened ∧ (s.group h).filling = [] ∧ (s.group h).outgoing = [])
       (¬ flushed → t.mode = .quiescing ∧ t.port = s.port) ∧
       (flushed → t.mode = .bypass ∧ ((∀ tk h r k, s.port ≠ .held tk h r k) → t.port = s.port) ∧
         (∀ tk h k, s.port = .held tk h .mode k →
           t.port = .passing { tk with disposition := .pass } ∧ t.asks .initiator (requestOf tk.tx)))) := by
  have hz : y.afterFlush s.time = y.disarmed := if_pos hfill
  rw [hb.flush_turn hmode hq, if_pos hfill, hz]
  generalize ha : b.update g y.disarmed [] [] b.due = a
  have hamode : a.mode = .quiescing := by rw [← ha]; exact hb.mode.trans hmode
  have haqueue : a.commitQueue = [] := by rw [← ha]; rfl
  have haengine : a.engine = none := by rw [← ha]; exact hb.engine
  have haport : a.port = s.port := by rw [← ha]; exact hb.port
  have harecords : a.records = b.records := by rw [← ha]; rfl
  have hself : a.group g = y.disarmed := by rw [← ha, update, put_group, Function.update_self]
  have hother : ∀ h, h ≠ g → a.group h = s.group h := fun h hh => by
    rw [← ha, update, put_group, Function.update_of_ne hh, hb.group, if_neg hh]
  have hcan : a.canTake = false := (canTake_eq_false_iff a).mpr (.inr (.inl haqueue))
  have hnot : a.mode ≠ .resetting := by rw [hamode]; decide
  obtain ⟨w, hfollows, hgroups, -, hqueue, hengine, hrecords⟩ := follows_of_no_take s hcan hnot
  have hgroup : ∀ h, (s.settle a).group h = a.group h := fun h => by rw [hfollows.group, State.group, hgroups, State.group]
  refine ⟨hfollows.idle (hengine.trans haengine), hfollows.commitQueue.trans (hqueue.trans haqueue), (hgroup g).trans hself,
    fun h hh => (hgroup h).trans (hother h hh), ?_, ?_⟩
  · have hw : w.records = bs.foldl RecordUnit.handOver s.records := hrecords.trans (harecords.trans hb.records)
    exact hfollows.reports ⟨congrArg RecordUnit.queue hw, congrArg RecordUnit.lostCount hw⟩
  · intro flushed
    have hdone : flushed ↔ a.flushDone = true := by
      refine ⟨fun h => flushDone_of_flushed hamode (fun i => ?_) haqueue haengine, fun h i hi => ?_⟩
      · rw [flushed_iff]
        by_cases hi : i = g
        · rw [hi, hself]
          exact .inr ⟨rfl, hfill, hout⟩
        · rw [hother i hi]
          exact h i hi
      · obtain ⟨-, hall, -⟩ := flushDone_parts h
        rw [← hother i hi]
        exact (flushed_iff _).mp (hall i)
    refine ⟨fun h => ?_, fun h => ?_⟩
    · have hf := follows_settle s hcan (by simpa using fun hc => h (hdone.mpr hc)) (by simp [softResetDone, hnot])
      exact ⟨hf.mode.trans hamode, hf.port.trans haport⟩
    · obtain ⟨hf, hbypass⟩ := follows_completeFlush s (hdone.mp h) hcan
      refine ⟨hf.mode.trans hbypass, fun hport => ?_, fun tk i k hport => ?_⟩
      · have hpass : a.completeFlush = a.setMode .bypass :=
          passHeld_of_not_held (a.setMode .bypass) (fun tk i r k hp => hport tk i r k (haport.symm.trans hp))
        rw [hf.port, hpass]
        exact haport
      · have hpass : a.completeFlush = _ := passHeld_eq (a.setMode .bypass) tk i .mode k (haport.trans hport)
        refine ⟨by rw [hf.port, hpass], hf.initiator _ (.inl ?_)⟩
        rw [hpass]
        rfl

end EpochEnded

end State

/-- Settles O54. -/
theorem endMarkerCompletesTheEpoch : Obligations.EndMarkerCompletesTheEpoch := by
  intro s c hc hs hrun howner hstep g x y report answered
  have hexec : answered = .next (s.settle (s.drainResponse true)) := exec_drainStepResponse hrun true
  have hended : s.mode ≠ .resetting → ∃ b, answered = .next (s.settle (b.takeAll none [g])) ∧ State.EpochEnded s g y report b := fun hmode => by
    obtain ⟨b, hb, hend⟩ := State.drainResponse_finish hc hmode howner hstep
    exact ⟨b, hexec.trans (by rw [hb]), hend⟩
  have hy : y.progress.begun = false ∧ y.progress.abandonPending = false ∧ y.filling = x.filling ∧ y.outgoing = x.outgoing := by
    by_cases hk : c.kind = .epoch
    · rw [show y = x.epochDone from if_pos hk]
      exact ⟨rfl, rfl, rfl, rfl⟩
    · rw [show y = x.epochClosed from if_neg hk]
      exact ⟨rfl, rfl, rfl, rfl⟩
  obtain ⟨hbegun, hpending, hfilling, houtgoing⟩ := hy
  have hreturned : ∀ z w : Group, w = z.onReturn s.time → Returned s.time z w (z.returnSkips s.time) := fun z w hw =>
    hw ▸ returned_onReturn s.time z
  refine ⟨fun hmode hq => ?_, fun h rest hq hne hb ha hmode => ?_, fun hmode hq hfill => ?_, fun hmode hq hfill hout => ?_⟩
  · obtain ⟨b, hanswered, hend⟩ := hended (by rw [hmode]; decide)
    have hself : b.group g = y := (hend.group g).trans (if_pos rfl)
    obtain ⟨hengine, hqueue, hothers, hreturn, hreports⟩ := State.settle_ends_idle (s := s) (b := b) hend.engine (hend.mode.trans hmode)
      (hend.queue.trans hq) g hend.records
    rw [hself, hend.time] at hreturn hreports
    exact ⟨_, hanswered, hengine, hqueue, fun h hh => (hothers h hh).trans ((hend.group h).trans (if_neg hh)), _, hreturned y _ hreturn,
      hreports⟩
  · obtain ⟨b, hanswered, hend⟩ := hended (by rw [hmode]; decide)
    refine ⟨fun hfirst => ?_, fun hm ho hrest => ?_⟩
    · obtain ⟨htakes, hqueue, hothers, hreturn, hreports⟩ := hend.takes_next hmode hq hne ⟨hb, ha, by tauto⟩
      exact ⟨_, hanswered, htakes, hqueue, hothers, _, hreturned y _ hreturn, hreports⟩
    · subst hrest
      obtain ⟨hengine, hqueue, hothers, hreturn, hnext, hreports⟩ := hend.completes_next hmode hq hne ⟨hb, ha, hm, ho⟩
      exact ⟨_, hanswered, hengine, hqueue, hothers, _, _, hreturned y _ hreturn, hreturned _ _ hnext, hreports⟩
  · obtain ⟨b, hanswered, hend⟩ := hended (by rw [hmode]; decide)
    exact ⟨_, hanswered, hend.flush_takes hmode hq (by rw [hfilling]; exact hfill) hbegun hpending⟩
  · obtain ⟨b, hanswered, hend⟩ := hended (by rw [hmode]; decide)
    exact ⟨_, hanswered, hend.flush_opens hmode hq (hfilling.trans hfill) (houtgoing.trans hout)⟩

end Sys2Proof.Machine
end

end
